-- ==== Sys2Proof/Word.lean ====
section
/-! DEFINITION. The word types of the block: one register is a byte, a 16-bit sample is one
value, a command is one 20-bit word, and a register address is a number that is only ever
compared (spec 00_scope.md R7, 20_memory.md R50 and R51, 30_encoding.md R74). -/

namespace Sys2Proof

/-- One register of the register space; also a `Signed8` sample's pattern (R50, R71, R72). -/
abbrev Byte := BitVec 8

/-- The pattern of a 16-bit sample: one value, never split into bytes (R51, R71). -/
abbrev Half := BitVec 16

/-- One command word (R74). -/
abbrev CmdWord := BitVec 20

/-- A register address. The spec leaves the type open, with decidable equality only (R7, D22).
DESIGN CHOICE (safe), log entry 11: a natural number. -/
abbrev Addr := Nat

end Sys2Proof
end

