-- ==== Sys2Proof/Config.lean ====
section
/-! DEFINITION. What is fixed for one machine: the hardware variant, the profile of each variant
and the other named parameters of spec 00_scope.md R6 and R7, the five step labels of R10, and
the free values (opaque constants, no body) for what the spec calls a draw or leaves
uninterpreted. -/

namespace Sys2Proof

/-- The three hardware variants, fixed at build time (R1). -/
inductive Variant where
  | variantA
  | variantB
  | variantDefault
  deriving DecidableEq, Repr, Inhabited

/-- The waveform-generation modes (R7 `PWM_MODE`, R28). -/
inductive PwmMode where
  | phaseCorrect
  | fastPwm
  deriving DecidableEq, Repr, Inhabited

/-- `DUTY_W` (R6). -/
def dutyWidth : Nat := 8

/-- `CTL_W` (R7, D4). -/
def ctlWidth : Nat := 8

/-- `PRESCALE`, the prescaler after BEGIN on all three variants (R6). -/
def prescale : Nat := 1

/-- `CARRIER_HZ`, nominal; no rule depends on it (R6, R169). -/
def carrierHzNominal : Nat := 31250

/-- What the spec leaves open of one variant's profile (R7; R31's OPEN cells). A pair of
`waveSeq` or `irqSeq` is a register address with the 8-bit value written to it (R73). -/
structure Profile where
  /-- `DUTY_ADDR[v]` -/
  dutyAddr : Addr
  /-- `IRQ_ID[v]`, a symbolic identifier -/
  irqId : String
  /-- `WAVE_SEQ[v]` -/
  waveSeq : List Host.Cell
  /-- `IRQ_SEQ[v]` -/
  irqSeq : List Host.Cell
  /-- `PWM_MODE[v]` -/
  pwmMode : PwmMode
  deriving DecidableEq, Repr, Inhabited

/-- `CTL_SEQ[v] = WAVE_SEQ[v] ++ IRQ_SEQ[v]` (R7, R32). -/
def Profile.ctlSeq (p : Profile) : List Host.Cell := p.waveSeq ++ p.irqSeq

/-- `nW[v]` (R7). -/
def Profile.nW (p : Profile) : Nat := p.waveSeq.length

/-- `nI[v]` (R7). -/
def Profile.nI (p : Profile) : Nat := p.irqSeq.length

/-- `n[v] = nW[v] + nI[v]` (R7). -/
def Profile.n (p : Profile) : Nat := p.nW + p.nI

/-- The addresses of `CTL_SEQ[v]` (R27, R56). -/
def Profile.ctlAddrs (p : Profile) : List Addr := p.ctlSeq.map Prod.fst

/-- The configuration record of the model (R7): none of it is state of the block (R30). -/
structure Config where
  /-- `VARIANT`, fixed before the first step (R1, R90) -/
  variant : Variant
  profileA : Profile
  profileB : Profile
  profileDefault : Profile
  /-- `TARGETS_A`, the build-target identifiers that select VariantA (R81) -/
  targetsA : List String
  /-- `TARGETS_B` (R81) -/
  targetsB : List String
  /-- the interrupt identifiers the host has bound a handler to at its registration point
  (R82, R136); no step of the block reads it (log entry 19) -/
  boundHandlers : List String
  /-- `F_CLK`; timing only, no rule depends on it (R7) -/
  fClk : Nat
  deriving DecidableEq, Repr, Inhabited

/-- The open parameters of variant `v`. -/
def Config.profileOf (c : Config) : Variant → Profile
  | .variantA => c.profileA
  | .variantB => c.profileB
  | .variantDefault => c.profileDefault

/-- The profile of the machine's own variant, `…[VARIANT]` in every rule. -/
def Config.active (c : Config) : Profile := c.profileOf c.variant

/-- The five step labels, each the action of one agent (R10). -/
inductive StepLabel where
  /-- the host presents a command word -/
  | cmd (w : CmdWord)
  /-- the init sequencer performs its next micro-step -/
  | seqstep
  /-- the timer overflows -/
  | ovf
  /-- the dispatcher takes the pending interrupt -/
  | irqack
  /-- power-cycle or hardware reset -/
  | reset
  deriving DecidableEq, Repr, Inhabited

/-- FREE VALUE, `DUTY_RESET`: the duty register after the `k`-th draw of a reset (R7, R36, D8;
log entry 6). Safe: nothing constrains it. -/
opaque Config.dutyReset : Nat → Byte

/-- FREE VALUE: the label the environment offers where `sched` lists none (R10, R139; log
entry 1). Safe: nothing constrains it. -/
opaque Config.freeLabel : Nat → StepLabel

/-- UNINTERPRETED, `highFraction(m, d)`: the fraction of a PWM period the pin is high (R7, R37,
D16; log entry 18). Safe: nothing constrains it. -/
opaque Config.highFraction : PwmMode → Nat → Rat

/-- FREE VALUE: the level, at the `k`-th observation, of a pin that is driven before the
waveform is programmed (R37, U8; log entry 18). Safe: nothing constrains it. -/
opaque Config.drivenLevel : Nat → Bool

end Sys2Proof
end

