-- ==== Sys2Proof/Syntax.lean ====
section
/-! DEFINITION. The four operations of the block (spec 30_encoding.md R70), the tagged samples
and the source-level call they are written with (R71, R82), and the names of the reserved
encodings (R77). -/

namespace Sys2Proof

/-- The operation set, complete: one constructor per row of spec/opcode_table.json (R70). The
operand is the sample's bit pattern (R71). -/
inductive Instr where
  /-- `BEGIN` -/
  | begin
  /-- `WRITE.S8 s` -/
  | writeS8 (s : Byte)
  /-- `WRITE.U16 s` -/
  | writeU16 (s : Half)
  /-- `WRITE.S16 s` -/
  | writeS16 (s : Half)
  deriving DecidableEq, Repr, Inhabited

/-- A logical audio sample, one of three tagged kinds; the tag travels in the operation (R71). -/
inductive Sample where
  | signed8 (s : Byte)
  | unsigned16 (s : Half)
  | signed16 (s : Half)
  deriving DecidableEq, Repr, Inhabited

/-- The pseudo-operation `write(s)`, dispatched by the sample's kind (R82). -/
def Instr.write : Sample → Instr
  | .signed8 s => .writeS8 s
  | .unsigned16 s => .writeU16 s
  | .signed16 s => .writeS16 s

/-- Whether an operation is one of the three WRITE operations (R118, R137). -/
def Instr.isWrite : Instr → Bool
  | .begin => false
  | .writeS8 _ => true
  | .writeU16 _ => true
  | .writeS16 _ => true

/-- The three classes of reserved command words (R77). -/
inductive ReservedWord where
  /-- `op` is 0x0 or 0x5 to 0xF, with any payload -/
  | unusedOp
  /-- `op = 0x1` with a payload that is not 0x0000 -/
  | beginWithPayload
  /-- `op = 0x2` with `payload[15:8]` not 0x00 -/
  | writeS8HighByte
  deriving DecidableEq, Repr, Inhabited

/-- A line of the spec's script notation (R83): a step label, or a command by its operation. -/
inductive ScriptLine where
  | reset
  | cmd (i : Instr)
  | cmdWord (w : CmdWord)
  | seqstep
  | ovf
  | irqack
  deriving DecidableEq, Repr, Inhabited

end Sys2Proof
end

