-- ==== Sys2Proof/WellFormed.lean ====
section
/-! DEFINITION. What the model accepts: every operation (all sample patterns are legal, spec
30_encoding.md R71), a profile that meets 10_state.md R32, and a configuration whose target sets
are disjoint (00_scope.md R7). -/

namespace Sys2Proof

/-- "Every bit pattern of the stated width is a legal sample; there is no illegal or reserved
sample value" (R71): no operation is ill formed. -/
def Instr.wf : Instr → Bool
  | .begin => true
  | .writeS8 _ => true
  | .writeU16 _ => true
  | .writeS16 _ => true

/-- No address occurs twice. -/
def distinctAddrs : List Addr → Bool
  | [] => true
  | a :: l => !l.contains a && distinctAddrs l

/-- R32: both groups non-empty, the addresses of `CTL_SEQ` pairwise distinct, `DUTY_ADDR` none of
them. That `CTL_SEQ = WAVE_SEQ ++ IRQ_SEQ` and that values fit in 8 bits hold by construction. -/
def Profile.wf (p : Profile) : Bool :=
  !p.waveSeq.isEmpty && !p.irqSeq.isEmpty && distinctAddrs p.ctlAddrs
    && !p.ctlAddrs.contains p.dutyAddr

/-- `TARGETS_A` and `TARGETS_B` are disjoint (R7). -/
def Config.targetsDisjoint (c : Config) : Bool :=
  c.targetsA.all fun t => !c.targetsB.contains t

/-- "A model accepts a configuration only if, for the chosen variant" its profile is well formed
(R32), and its target sets are disjoint (R7). -/
def Config.wf (c : Config) : Bool := c.active.wf && c.targetsDisjoint

end Sys2Proof
end

