-- ==== Sys2Proof/Decode.lean ====
section
/-! DEFINITION. The command word of spec 30_encoding.md: its two fields (R74), operand assembly
(R75), the decoder, total on every 20-bit word, that answers an operation or the class of the
reserved word (R76, R77, R79), the opcode table as rows of match and mask (R76), and the encoder
written from the same table. -/

namespace Sys2Proof

/-- `op = w[19:16]` (R74). -/
def opField (w : CmdWord) : BitVec 4 := w.extractLsb' 16 4

/-- `payload = w[15:0]` (R74). -/
def payload (w : CmdWord) : Half := w.extractLsb' 0 16

/-- `payload[15:8]` (R74). -/
def payloadHigh (w : CmdWord) : Byte := w.extractLsb' 8 8

/-- `payload[7:0]` (R74). -/
def payloadLow (w : CmdWord) : Byte := w.extractLsb' 0 8

/-- The decoder (R75 to R77): one of the four operations, or the class of the reserved word. -/
def decode (w : CmdWord) : Except ReservedWord Instr :=
  if opField w = 0x1#4 then
    if payload w = 0x0000#16 then .ok .begin else .error .beginWithPayload
  else if opField w = 0x2#4 then
    if payloadHigh w = 0x00#8 then .ok (.writeS8 (payloadLow w)) else .error .writeS8HighByte
  else if opField w = 0x3#4 then .ok (.writeU16 (payload w))
  else if opField w = 0x4#4 then .ok (.writeS16 (payload w))
  else .error .unusedOp

/-- A row of the opcode map: a word selects the row when `w AND mask = match` (R76). -/
structure OpcodeRow where
  mnemonic : String
  matchBits : CmdWord
  mask : CmdWord
  deriving DecidableEq, Repr

/-- The row of an operation in the opcode map (R76). -/
def Instr.row : Instr → OpcodeRow
  | .begin => ⟨"BEGIN", 0x10000#20, 0xFFFFF#20⟩
  | .writeS8 _ => ⟨"WRITE.S8", 0x20000#20, 0xFFF00#20⟩
  | .writeU16 _ => ⟨"WRITE.U16", 0x30000#20, 0xF0000#20⟩
  | .writeS16 _ => ⟨"WRITE.S16", 0x40000#20, 0xF0000#20⟩

/-- The opcode map, complete, in the order of R76. -/
def opcodeTable : List OpcodeRow :=
  [Instr.row .begin, Instr.row (.writeS8 0), Instr.row (.writeU16 0), Instr.row (.writeS16 0)]

/-- `w` selects the row (R76). -/
def OpcodeRow.selects (r : OpcodeRow) (w : CmdWord) : Bool := w &&& r.mask == r.matchBits

/-- The encoder: formats N, B and H of R74 with the codes of R76. -/
def encode : Instr → CmdWord
  | .begin => 0x1#4 ++ 0x0000#16
  | .writeS8 s => 0x200#12 ++ s
  | .writeU16 s => 0x3#4 ++ s
  | .writeS16 s => 0x4#4 ++ s

/-- The step label a script line stands for (R83). -/
def ScriptLine.label : ScriptLine → StepLabel
  | .reset => .reset
  | .cmd i => .cmd (encode i)
  | .cmdWord w => .cmd w
  | .seqstep => .seqstep
  | .ovf => .ovf
  | .irqack => .irqack

/-- The command word of a table word of `nbits` bits (log entry 3): the bits above `nbits` are
zero, and a number that needs more than 20 bits is no command word (R74, R79). -/
def tableWord (nbits w : Nat) : Option CmdWord :=
  if w % 2 ^ nbits < 2 ^ 20 then some (BitVec.ofNat 20 (w % 2 ^ nbits)) else none

/-- The operation the decoder reads from a table word (log entry 3). -/
def decodeTableWord (nbits w : Nat) : Option Instr :=
  match tableWord nbits w with
  | none => none
  | some c =>
    match decode c with
    | .ok i => some i
    | .error _ => none

end Sys2Proof
end

