-- ==== Sys2Proof/Machine/Profile.lean ====
section
/-! DEFINITION. The HardwareProfile and its build-time selection (spec 10_state.md R30, R31 and
40_init_sequence.md R90), and the one concrete configuration the model starts from. -/

namespace Sys2Proof

/-- `outputPin[v]`: 11, 3, 3 (R6, R31). -/
def Variant.outputPin : Variant → Nat
  | .variantA => 11
  | .variantB => 3
  | .variantDefault => 3

/-- The timer and register sets of the three variants, names only (R6, R31). -/
inductive TimerSet where
  /-- "dedicated timer/register set A" -/
  | setA
  /-- "timer/register set B" -/
  | setB
  /-- "timer/register set C" -/
  | setC
  deriving DecidableEq, Repr

/-- The timer/register set of each variant (R6, R31). -/
def Variant.timerSet : Variant → TimerSet
  | .variantA => .setA
  | .variantB => .setB
  | .variantDefault => .setC

/-- The attributes of a HardwareProfile, one per variant (R30). -/
structure HardwareProfile where
  outputPin : Nat
  dutyRegisterAddress : Addr
  interruptId : String
  timerControlRegisters : List Host.Cell
  deriving DecidableEq, Repr

/-- `profile[v]`, a column of R31. -/
def Config.hardwareProfile (c : Config) (v : Variant) : HardwareProfile :=
  { outputPin := v.outputPin
    dutyRegisterAddress := (c.profileOf v).dutyAddr
    interruptId := (c.profileOf v).irqId
    timerControlRegisters := (c.profileOf v).ctlSeq }

/-- The variant a build-target identifier selects: TARGETS_A, then TARGETS_B, every other
identifier VariantDefault (R81, R90; the sets are disjoint in every accepted configuration). -/
def Config.variantOf (c : Config) (target : String) : Variant :=
  if target ∈ c.targetsA then .variantA
  else if target ∈ c.targetsB then .variantB
  else .variantDefault

/-- `resolve(t)` (R90): pure, total, no failure. -/
def Config.resolve (c : Config) (target : String) : HardwareProfile :=
  c.hardwareProfile (c.variantOf target)

/-- The build: `resolve` is evaluated once and fixes `VARIANT` (R90). -/
def Config.build (c : Config) (target : String) : Config :=
  { c with variant := c.variantOf target }

/-- `registration point`: the host binds a handler to the variant's interrupt identifier (R82,
R136). It changes the host's dispatcher, nothing of the block. -/
def Config.bindHandler (c : Config) : Config :=
  { c with boundHandlers := c.active.irqId :: c.boundHandlers }

/-- The dispatcher has a handler for the block's interrupt (R136). -/
def Config.handlerBound (c : Config) : Bool := c.boundHandlers.contains c.active.irqId

/-- The configuration `State.reset` carries. PRESUMED (unsafe), log entry 5: the candidate of
spec 93_implementation_defined.md G1 (AVR family), VariantDefault, no handler bound yet. It is no
evidence about the hardware; statements quantify over every configuration. -/
def Config.candidate : Config :=
  { variant := .variantDefault
    profileA :=
      { dutyAddr := 0x43, irqId := "TIMER2_OVF_vect", waveSeq := [(0x45, 0x61#8)]
        irqSeq := [(0x59, 0x40#8)], pwmMode := .phaseCorrect }
    profileB :=
      { dutyAddr := 0x9C, irqId := "TIMER3_OVF_vect"
        waveSeq := [(0x90, 0x09#8), (0x91, 0x01#8)]
        irqSeq := [(0x71, 0x01#8)], pwmMode := .phaseCorrect }
    profileDefault :=
      { dutyAddr := 0xB4, irqId := "TIMER2_OVF_vect"
        waveSeq := [(0xB0, 0x21#8), (0xB1, 0x01#8)]
        irqSeq := [(0x70, 0x01#8)], pwmMode := .phaseCorrect }
    targetsA := ["__AVR_ATmega8__"]
    targetsB := ["__AVR_ATmega1280__"]
    boundHandlers := []
    fClk := 16000000 }

end Sys2Proof
end

