-- ==== Sys2Proof/Machine/State.lean ====
section
/-! DEFINITION. The state of the machine, plain data: the block's record of spec 10_state.md R20,
the model's bookkeeping (R11, R59), the configuration (R7, R30), what the environment does next,
and the counter of free values; the refusals; and the state after reset (R36). -/

namespace Sys2Proof.Machine

/-- `mode`, the source's two-state machine (R21). -/
inductive Mode where
  | unconfigured
  | running
  deriving DecidableEq, Repr, Inhabited

/-- `seq`, the init sequencer's position: the next micro-step to perform (R24). -/
inductive SeqPos where
  | idle
  | pin
  | reg (k : Nat)
  | ret
  deriving DecidableEq, Repr, Inhabited

/-- The timer control registers as last written (R27): register addresses, strictly rising, each
with its byte. An address that is not listed has not been written and is undefined. -/
abbrev Memory := List Host.Cell

/-- What an unlisted address of the control registers reads as: nothing, since `ctl` is a partial
map (R27; log entry 12). -/
def Memory.unlisted : Option Byte := none

/-- The state of the block: exactly the record of R20. -/
structure Block where
  mode : Mode
  duty : Byte
  seq : SeqPos
  ovfPending : Bool
  ctl : Memory
  wave : Option PwmMode
  prescale1 : Bool
  ovfie : Bool
  pinDrive : Bool
  deriving DecidableEq, Repr, Inhabited

/-- The whole model: the block, what the spec keeps beside it, and the environment. -/
structure State where
  /-- configuration, not state of the block: changed by no step (R30; log entry 4) -/
  cfg : Config
  /-- the block (R20) -/
  block : Block
  /-- the refusal mark: the run contains an input the spec does not define (R11; log entry 8) -/
  refusalMark : Bool
  /-- the host declares a second context that issues WRITE (R59; log entry 9) -/
  secondWriter : Bool
  /-- the step labels the environment offers next, oldest first (R10; log entry 1) -/
  sched : List StepLabel
  /-- the index of the next free value (log entry 6) -/
  draws : Nat
  deriving DecidableEq, Repr

/-- There is no fault outcome (R11, R130): no constructor, raised by nobody. -/
inductive Fault where
  deriving DecidableEq, Repr

/-- Inputs and states the spec gives no meaning (R11). Every one is safe: the model stops. -/
inductive Refusal where
  /-- raised by exec's arm of an instruction that has no meaning yet; safe -/
  | notModelled (mnemonic : String)
  /-- raised by a `cmd` step whose word matches no row of the opcode map (R77); safe -/
  | reservedWord (why : ReservedWord)
  /-- raised by BEGIN while a BEGIN is in progress (R100); safe -/
  | beginWhileBeginInProgress
  /-- raised by a WRITE, and by every step, of a host that declares two writers (R59); safe -/
  | secondWriter
  /-- raised by a RegWrite to an address that is not a register of the block (R50); safe -/
  | notARegister (a : Addr)
  /-- raised by a micro-step Reg(k) with k outside 1..n, no position of R20; safe -/
  | seqOutOfRange (k : Nat)
  /-- raised by every step of a machine whose configuration is not accepted (R32); safe -/
  | configNotAccepted
  /-- raised by every step but `reset` of a run that already holds a refusal (R11); safe -/
  | runHoldsARefusal
  deriving DecidableEq, Repr

/-- The block after a reset, the duty register holding the draw `d` (R36). -/
def Block.afterReset (d : Byte) : Block :=
  { mode := .unconfigured
    duty := d
    seq := .idle
    ovfPending := false
    ctl := []
    wave := none
    prescale1 := false
    ovfie := false
    pinDrive := false }

/-- The machine of configuration `c` right after its first reset: nothing is offered, nothing was
refused, one writer, and the duty register holds draw 0 (R36; log entries 6 and 9). -/
def State.resetOf (c : Config) : State :=
  { cfg := c
    block := Block.afterReset (Config.dutyReset 0)
    refusalMark := false
    secondWriter := false
    sched := []
    draws := 1 }

/-- The machine right after reset (R36), with the configuration of log entry 5. -/
def State.reset : State := State.resetOf Config.candidate

/-- The open parameters of the machine's variant: `…[VARIANT]`. -/
def State.profile (s : State) : Profile := s.cfg.active

end Sys2Proof.Machine
end

