-- ==== Sys2Proof/Machine/Flags.lean ====
section
/-! DEFINITION. The block's only flag, `ovfPending` (spec 10_state.md R25, R26), the interrupt
output computed from it (R37), and when the timer runs (60_exceptions.md R132). -/

namespace Sys2Proof.Machine

/-- `ovfPending <- 1` (R25, R132): the flag does not count, a second overflow merges (R133). -/
def Block.raiseOverflow (b : Block) : Block := { b with ovfPending := true }

/-- `ovfPending <- 0` (R25, R134). -/
def Block.clearOverflow (b : Block) : Block := { b with ovfPending := false }

/-- `irq = ovfPending AND ovfie` (R37). -/
def Block.irq (b : Block) : Bool := b.ovfPending && b.ovfie

/-- The timer counts: `wave` is not none and `prescale1 = 1` (R132). -/
def Block.timerRuns (b : Block) : Bool := b.wave.isSome && b.prescale1

/-- The interrupt line to the dispatcher: `irq`, tagged `IRQ_ID[VARIANT]` (R37, R131). -/
def State.irqLine (s : State) : Option String :=
  if s.block.irq then some s.profile.irqId else none

end Sys2Proof.Machine
end

