-- ==== Sys2Proof/Machine/Ops.lean ====
section
/-! DEFINITION. The named operations over the state: one setter per field, the register space and
its one primitive `RegWrite` (spec 20_memory.md R50), the write of the duty register by the single
writer (R59), and the block's side of taking the interrupt (60_exceptions.md R134, R140). The block
raises no exception and has no return from one (R130, R141). -/

namespace Sys2Proof.Machine

def Block.setMode (b : Block) (m : Mode) : Block := { b with mode := m }

def Block.setDuty (b : Block) (v : Byte) : Block := { b with duty := v }

def Block.setSeq (b : Block) (q : SeqPos) : Block := { b with seq := q }

def Block.setCtl (b : Block) (c : Memory) : Block := { b with ctl := c }

/-- `wave <- some m; prescale1 <- 1`, the completion of the wave group (R94). -/
def Block.setWaveform (b : Block) (m : PwmMode) : Block :=
  { b with wave := some m, prescale1 := true }

/-- `ovfie <- 1`, the completion of the irq group (R95). -/
def Block.enableOverflow (b : Block) : Block := { b with ovfie := true }

/-- `pinDrive <- 1` (R92). -/
def Block.drivePin (b : Block) : Block := { b with pinDrive := true }

def State.setBlock (s : State) (b : Block) : State := { s with block := b }

def State.setSched (s : State) (l : List StepLabel) : State := { s with sched := l }

def State.setMark (s : State) : State := { s with refusalMark := true }

def State.setDraws (s : State) (k : Nat) : State := { s with draws := k }

/-- What follows an operation that answers a next state. -/
def andThen (o : Host.Outcome State Fault Refusal)
    (f : State → Host.Outcome State Fault Refusal) : Host.Outcome State Fault Refusal :=
  match o with
  | .next s => f s
  | .fault r => .fault r
  | .refused r => .refused r

/-- The outcome with `f` applied to the state it answers. -/
def mapNext (f : State → State) (o : Host.Outcome State Fault Refusal) :
    Host.Outcome State Fault Refusal :=
  match o with
  | .next s => .next (f s)
  | .fault r => .fault r
  | .refused r => .refused r

/-- The byte last written at an address of the control registers, if any (R27). -/
def Memory.read : Memory → Nat → Option Byte
  | [], _ => Memory.unlisted
  | (a, v) :: m, x => if x = a then some v else Memory.read m x

/-- `ctl[x] <- v`: a whole-register overwrite that keeps the addresses rising (R27, R50). -/
def Memory.write : Memory → Nat → Byte → Memory
  | [], x, v => [(x, v)]
  | (a, w) :: m, x, v =>
    if x < a then (x, v) :: (a, w) :: m
    else if x = a then (x, v) :: m
    else (a, w) :: Memory.write m x v

/-- Every listed address is above `lo`, and they rise strictly. -/
def Memory.risesFrom : Nat → Memory → Bool
  | _, [] => true
  | lo, (a, _) :: m => decide (lo < a) && Memory.risesFrom a m

/-- The canonical form: addresses strictly rising. (No entry equals what an unlisted address reads
as, since that is no byte.) -/
def Memory.wf : Memory → Bool
  | [] => true
  | (a, _) :: m => Memory.risesFrom a m

/-- `RegWrite(a, v)` (R50): replaces the whole register at `a` and does nothing else. Where both
tests hold (an address map that is not well formed) the duty register is written (log entry 13). -/
def regWrite (a : Addr) (v : Byte) (s : State) : Host.Outcome State Fault Refusal :=
  if a = s.profile.dutyAddr then .next (s.setBlock (s.block.setDuty v))
  else if a ∈ s.profile.ctlAddrs then
    .next (s.setBlock (s.block.setCtl (s.block.ctl.write a v)))
  else .refused (.notARegister a)

/-- The register space as the hardware sees it (R33, R56): the duty register at `DUTY_ADDR`, a
control register's byte once it has been written. No operation reads it (R54). -/
def State.regSpace (s : State) (a : Addr) : Option Byte :=
  if a = s.profile.dutyAddr then some s.block.duty else s.block.ctl.read a

/-- The one `RegWrite` of a WRITE operation, `RegWrite(DUTY_ADDR[VARIANT], v)`, by the single
writer: a host that declares two writer contexts is refused (R53, R59, D18; log entry 9). -/
def writeDuty (v : Byte) (s : State) : Host.Outcome State Fault Refusal :=
  if s.secondWriter then .refused .secondWriter else regWrite s.profile.dutyAddr v s

/-- The block's side of trap entry (R134, R140): `ovfPending <- 0`, and nothing is saved, masked
or switched. -/
def takeInterrupt (s : State) : State := s.setBlock s.block.clearOverflow

end Sys2Proof.Machine
end

