-- ==== Sys2Proof/Machine/InitSequence.lean ====
section
/-! DEFINITION. The TimerConfigurator (spec 40_init_sequence.md): the BEGIN command (R91, R100),
the micro-steps `Pin`, `Reg(k)` and `Ret` it is performed as (R92 to R96), the `seqstep` that
performs the one `seq` names, and the same BEGIN as one atomic action (R103). -/

namespace Sys2Proof.Machine

/-- `BEGIN` (R91): starts the init sequencer; refused while a BEGIN is in progress (R100). -/
def execBegin (s : State) : Host.Outcome State Fault Refusal :=
  match s.block.seq with
  | .idle => .next (s.setBlock (s.block.setSeq .pin))
  | .pin => .refused .beginWhileBeginInProgress
  | .reg _ => .refused .beginWhileBeginInProgress
  | .ret => .refused .beginWhileBeginInProgress

/-- `CTL_SEQ[VARIANT][k]`, counted from 1 (R93). -/
def ctlPair (p : Profile) (k : Nat) : Option Host.Cell :=
  match k with
  | 0 => none
  | j + 1 => p.ctlSeq[j]?

/-- The position after `Reg(k)`, of `n` register writes (R93). -/
def nextReg (k n : Nat) : SeqPos := if k < n then .reg (k + 1) else .ret

/-- The completion of the wave group at `k = nW` (R94). -/
def finishWave (p : Profile) (k : Nat) (b : Block) : Block :=
  if k = p.nW then b.setWaveform p.pwmMode else b

/-- The completion of the irq group at `k = n` (R95). -/
def finishIrq (p : Profile) (k : Nat) (b : Block) : Block :=
  if k = p.n then b.enableOverflow else b

/-- Micro-step `Pin` (R92). -/
def microPin (s : State) : State := s.setBlock (s.block.drivePin.setSeq (.reg 1))

/-- Micro-step `Reg(k)` (R93): one `RegWrite`, the field-level effects of R94 and R95, and the
position. Outside `1 <= k <= n` there is no such position (R20). -/
def microReg (k : Nat) (s : State) : Host.Outcome State Fault Refusal :=
  match ctlPair s.profile k with
  | none => .refused (.seqOutOfRange k)
  | some (a, v) =>
    andThen (regWrite a v s) fun t =>
      .next (t.setBlock
        ((finishIrq s.profile k (finishWave s.profile k t.block)).setSeq (nextReg k s.profile.n)))

/-- Micro-step `Ret` (R96): the return of `begin()`. -/
def microRet (s : State) : State := s.setBlock ((s.block.setMode .running).setSeq .idle)

/-- The `seqstep` step: the micro-step `seq` names; not enabled when `seq = Idle` (R24, R102). -/
def seqstep (s : State) : Option (Host.Outcome State Fault Refusal) :=
  match s.block.seq with
  | .idle => none
  | .pin => some (.next (microPin s))
  | .reg k => some (microReg k s)
  | .ret => some (.next (microRet s))

/-- The register writes of a list of pairs, in order. -/
def regWrites : List Host.Cell → State → Host.Outcome State Fault Refusal
  | [], s => .next s
  | (a, v) :: l, s => andThen (regWrite a v s) (regWrites l)

/-- BEGIN as one atomic action, all of R92 to R96 at once (R103). It is not the model's BEGIN. -/
def atomicBegin (s : State) : Host.Outcome State Fault Refusal :=
  andThen (regWrites s.profile.ctlSeq (s.setBlock s.block.drivePin)) fun t =>
    .next (t.setBlock (((t.block.setWaveform s.profile.pwmMode).enableOverflow).setMode .running))

end Sys2Proof.Machine
end

