-- ==== Sys2Proof/Machine/Operands.lean ====
section
/-! DEFINITION. The operand forms of the four operations: pattern to value and value to pattern
(spec 00_scope.md R8, 30_encoding.md R71, R75), and the saturating clamp. All arithmetic is over
the integers (R8, R120). -/

namespace Sys2Proof.Machine

/-- `u_N(b)`: the pattern read as plain binary (R8). -/
def uN {n : Nat} (b : BitVec n) : Int := b.toNat

/-- `s_N(b) = u_N(b) - 2^N * b[N-1]`: the pattern read as two's complement (R8, D2). -/
def sN {n : Nat} (b : BitVec n) : Int := uN b - 2 ^ n * (if b.msb then 1 else 0)

/-- `bits_N(z)`: the pattern with `u_N(bits_N(z)) = z mod 2^N` (R8). -/
def bitsN (n : Nat) (z : Int) : BitVec n := BitVec.ofInt n z

/-- `clamp(z, lo, hi) = max(lo, min(z, hi))` (R8). -/
def clamp (z lo hi : Int) : Int := max lo (min z hi)

/-- The sample of WRITE.S8: `s_8(payload[7:0])` (R75). -/
def operandS8 (b : Byte) : Int := sN b

/-- The sample of WRITE.U16: `u_16(payload)` (R75). -/
def operandU16 (b : Half) : Int := uN b

/-- The sample of WRITE.S16: `s_16(payload)` (R75). -/
def operandS16 (b : Half) : Int := sN b

end Sys2Proof.Machine
end

