-- ==== Sys2Proof/Machine/SampleConverter.lean ====
section
/-! DEFINITION. The SampleConverter (spec 41_sample_converter.md): the three pure conversion
functions (R111 to R113), their forms on bit patterns (R114), and the meanings of the three WRITE
operations (R115 to R117). -/

namespace Sys2Proof.Machine

/-- `fromSigned8(s) = s + 128` (R111). -/
def fromSigned8 (s : Int) : Int := s + 128

/-- `fromUnsigned16(s) = min(s, 255)` (R112, R123). -/
def fromUnsigned16 (s : Int) : Int := min s 255

/-- `fromSigned16(s) = clamp(s, -128, 127) + 128` (R113). -/
def fromSigned16 (s : Int) : Int := clamp s (-128) 127 + 128

/-- R114, `fromSigned8` on patterns: invert bit 7. -/
def fromSigned8Bits (b : Byte) : Byte := b ^^^ 0x80#8

/-- R114, `fromUnsigned16` on patterns. -/
def fromUnsigned16Bits (b : Half) : Byte :=
  if b.extractLsb' 8 8 ≠ 0x00#8 then 0xFF#8 else b.extractLsb' 0 8

/-- R114, `fromSigned16` on patterns. -/
def fromSigned16Bits (b : Half) : Byte :=
  if b.getLsbD 15 = false ∧ b.extractLsb' 7 8 ≠ 0x00#8 then 0xFF#8
  else if b.getLsbD 15 = true ∧ b.extractLsb' 7 8 ≠ 0xFF#8 then 0x00#8
  else b.extractLsb' 0 8 ^^^ 0x80#8

/-- The duty value of a sample (R110): the conversion of its kind. -/
def dutyOf : Sample → Int
  | .signed8 s => fromSigned8 (operandS8 s)
  | .unsigned16 s => fromUnsigned16 (operandU16 s)
  | .signed16 s => fromSigned16 (operandS16 s)

/-- `WRITE.S8 s` (R115). -/
def execWriteS8 (b : Byte) (s : State) : Host.Outcome State Fault Refusal :=
  writeDuty (bitsN 8 (fromSigned8 (operandS8 b))) s

/-- `WRITE.U16 s` (R116). -/
def execWriteU16 (b : Half) (s : State) : Host.Outcome State Fault Refusal :=
  writeDuty (bitsN 8 (fromUnsigned16 (operandU16 b))) s

/-- `WRITE.S16 s` (R117). -/
def execWriteS16 (b : Half) (s : State) : Host.Outcome State Fault Refusal :=
  writeDuty (bitsN 8 (fromSigned16 (operandS16 b))) s

end Sys2Proof.Machine
end

