-- ==== Sys2Proof/Machine/Dispatch.lean ====
section
/-! DEFINITION. The meaning of each operation (spec 30_encoding.md R70), one arm per constructor. -/

namespace Sys2Proof.Machine

def exec (i : Instr) (s : State) : Host.Outcome State Fault Refusal :=
  match i with
  | .begin => Sys2Proof.Machine.execBegin s
  | .writeS8 b => Sys2Proof.Machine.execWriteS8 b s
  | .writeU16 b => Sys2Proof.Machine.execWriteU16 b s
  | .writeS16 b => Sys2Proof.Machine.execWriteS16 b s

end Sys2Proof.Machine
end

