-- ==== Sys2Proof/Machine/Timer.lean ====
section
/-! DEFINITION. The timer's overflow and the dispatcher's acknowledge (spec 60_exceptions.md R131
to R134, R140), and the power's reset (70_reset_and_hazards.md R160). -/

namespace Sys2Proof.Machine

/-- The `ovf` step (R132): enabled exactly when the timer runs, whether or not `ovfie` is set. -/
def ovfStep (s : State) : Option State :=
  if s.block.timerRuns then some (s.setBlock s.block.raiseOverflow) else none

/-- The `irqack` step (R134): enabled exactly when `irq = 1`. -/
def irqackStep (s : State) : Option State :=
  if s.block.irq then some (takeInterrupt s) else none

/-- The `reset` step (R160): every field of the block takes its value of R36, the duty register a
fresh draw. The configuration is unchanged and the refusal mark is kept (R36, R160). -/
def powerReset (s : State) : State :=
  (s.setBlock (Block.afterReset (Config.dutyReset s.draws))).setDraws (s.draws + 1)

end Sys2Proof.Machine
end

