-- ==== Sys2Proof/Machine/Transition.lean ====
section
/-! DEFINITION. The labelled transition system (spec 00_scope.md R10 to R12): what the model does
not admit, what each label does where it is enabled, the runs of a list of labels, and how the
environment's next offer is taken. -/

namespace Sys2Proof.Machine

/-- The refusals that hold whatever the label: a configuration that is not accepted (R32), a host
that declares two writers (R59), a run that holds a refusal (R11; a reset, enabled in every state
and keeping the mark, is still taken: R36, R160; log entry 8). -/
def admission (l : StepLabel) (s : State) : Option Refusal :=
  if s.cfg.wf = false then some .configNotAccepted
  else if s.secondWriter then some .secondWriter
  else if s.refusalMark ∧ l ≠ .reset then some .runHoldsARefusal
  else none

/-- The `cmd(w)` step (R10, R12, R77): the operation the word decodes to, or a refusal. -/
def cmdStep (w : CmdWord) (s : State) : Host.Outcome State Fault Refusal :=
  match decode w with
  | .ok i => exec i s
  | .error why => .refused (.reservedWord why)

/-- What a label does in an admitted run; none where it is not enabled (R10). -/
def labelStep (l : StepLabel) (s : State) : Option (Host.Outcome State Fault Refusal) :=
  match l with
  | .cmd w => some (cmdStep w s)
  | .seqstep => seqstep s
  | .ovf => (ovfStep s).map .next
  | .irqack => (irqackStep s).map .next
  | .reset => some (.next (powerReset s))

/-- The transition system: none where the block has no such step in this state (R10, R11). -/
def transition (l : StepLabel) (s : State) : Option (Host.Outcome State Fault Refusal) :=
  match admission l s with
  | some r => some (.refused r)
  | none => labelStep l s

/-- Whether the label is enabled (R102, R132, R134, R160). -/
def enabled (l : StepLabel) (s : State) : Bool := (labelStep l s).isSome

/-- A run along a list of labels (R38): none where some label is not enabled when its turn comes,
a refusal where one is refused. -/
def runLabels : List StepLabel → State → Option (Host.Outcome State Fault Refusal)
  | [], s => some (.next s)
  | l :: ls, s =>
    match transition l s with
    | none => none
    | some (.next t) => runLabels ls t
    | some (.fault r) => some (.fault r)
    | some (.refused r) => some (.refused r)

/-- The label the environment offers next: the oldest listed one, or where none is listed a free
choice (R10, R139; log entry 1). -/
def offer (s : State) : StepLabel :=
  match s.sched with
  | [] => Config.freeLabel s.draws
  | l :: _ => l

/-- The state once the offer is taken: the listed label is gone, or the free value is spent. -/
def takeOffer (s : State) : State :=
  match s.sched with
  | [] => s.setDraws (s.draws + 1)
  | _ :: rest => s.setSched rest

/-- The offered label's transition; a label that is not enabled is no step of the block and is
passed over (log entry 1). -/
def perform (l : StepLabel) (s : State) : Host.Outcome State Fault Refusal :=
  match transition l s with
  | none => .next s
  | some o => o

/-- `s` with the table word offered first (log entry 2); a number that is no command word is
offered as the reserved word 0x00000, which is refused like it (log entry 3). -/
def presentWord (s : State) (nbits w : Nat) : State :=
  match tableWord nbits w with
  | some c => s.setSched (.cmd c :: s.sched)
  | none => s.setSched (.cmd 0x00000#20 :: s.sched)

end Sys2Proof.Machine
end

