-- ==== Sys2Proof/Machine/Output.lean ====
section
/-! DEFINITION. The output pin, a pure function of the state (spec 10_state.md R37). -/

namespace Sys2Proof.Machine

/-- What the output pin shows (R37). -/
inductive PinOut where
  /-- the pin is not driven -/
  | undriven
  /-- the pin is driven and its level is a draw -/
  | drivenUnspecified
  /-- a continuous PWM carrier in mode `m` whose duty is `duty` -/
  | pwm (m : PwmMode) (duty : Nat)
  deriving DecidableEq, Repr

/-- `pwmOut` (R37). -/
def Block.pwmOut (b : Block) : PinOut :=
  if b.pinDrive then
    match b.wave with
    | none => .drivenUnspecified
    | some m => .pwm m b.duty.toNat
  else .undriven

/-- The fraction of the period the pin is high, `highFraction(m, d)`, uninterpreted (R37; log
entry 18). -/
def PinOut.highFraction : PinOut → Option Rat
  | .undriven => none
  | .drivenUnspecified => none
  | .pwm m d => some (Config.highFraction m d)

/-- The level of a driven pin with no waveform, at its `k`-th observation: a draw (R37; log
entry 18). -/
def PinOut.levelDraw (k : Nat) : PinOut → Option Bool
  | .undriven => none
  | .drivenUnspecified => some (Config.drivenLevel k)
  | .pwm _ _ => none

/-- The pin the output is on: `outputPin[VARIANT]` (R29, R145). -/
def State.outputPin (s : State) : Nat := s.cfg.variant.outputPin

end Sys2Proof.Machine
end

