-- ==== Sys2Proof/Machine/Trace.lean ====
section
/-! DEFINITION. A run that goes on past a refusal with the refusal mark set (spec 00_scope.md R11),
and the observation of a run, its trace (10_state.md R38). -/

namespace Sys2Proof.Machine

/-- One step of a run that is watched to its end: a refused offer is spent and leaves the refusal
mark, and the fields kept beside the mark mean nothing (R11, R77; log entry 8). -/
def advance (s : State) : State :=
  match step s with
  | .next t => t
  | .fault r => nomatch r
  | .refused _ => (takeOffer s).setMark

/-- `k` steps of a watched run. -/
def advances : Nat → State → State
  | 0, s => s
  | k + 1, s => advances k (advance s)

/-- One entry of a trace (R38): the label, which carries a command's word, and the resulting duty
for a command. -/
structure TraceEntry where
  label : StepLabel
  duty : Option Byte
  deriving DecidableEq, Repr

/-- The entry of label `l` whose step leaves state `t` (R38). -/
def traceEntry (l : StepLabel) (t : State) : TraceEntry :=
  match l with
  | .cmd w => ⟨.cmd w, some t.block.duty⟩
  | .seqstep => ⟨.seqstep, none⟩
  | .ovf => ⟨.ovf, none⟩
  | .irqack => ⟨.irqack, none⟩
  | .reset => ⟨.reset, none⟩

/-- The trace of the first `k` offers (R38): an offer that is not enabled is no step and leaves no
entry; the trace ends at a refusal. -/
def traceOf : Nat → State → List TraceEntry
  | 0, _ => []
  | k + 1, s =>
    match transition (offer s) (takeOffer s) with
    | none => traceOf k (takeOffer s)
    | some (.next t) => traceEntry (offer s) t :: traceOf k t
    | some (.fault _) => []
    | some (.refused _) => []

end Sys2Proof.Machine
end

