-- ==== Sys2Proof/Safety.lean ====
section
/-! DEFINITION. What counts as a safe run, in the terms statements use: an admitted state, the
invariants of spec 10_state.md R35 (with what makes them inductive), and the host's duties as
predicates over configurations and label lists (60_exceptions.md R135 to R137, R149), and weakly
fair infinite runs (40_init_sequence.md R102, 60_exceptions.md R132 and R136). -/

namespace Sys2Proof.Machine

/-- The configuration is accepted, the host declares one writer, nothing was refused yet (R11,
R32, R59). -/
def State.Admitted (s : State) : Prop :=
  s.cfg.wf = true ∧ s.secondWriter = false ∧ s.refusalMark = false

/-- The first `k` pairs of `CTL_SEQ[VARIANT]` stand in the control registers. -/
def State.Written (s : State) (k : Nat) : Prop :=
  ∀ c ∈ s.profile.ctlSeq.take k, s.block.ctl.read c.1 = some c.2

/-- The position is one of R20, and the micro-steps before it have had their effect (R92 to
R95, R97). -/
def State.SeqInv (s : State) : Prop :=
  match s.block.seq with
  | .idle => True
  | .pin => True
  | .reg k => 1 ≤ k ∧ k ≤ s.profile.n ∧ s.block.pinDrive = true ∧ s.Written (k - 1) ∧
      (s.profile.nW < k → s.block.wave = some s.profile.pwmMode)
  | .ret => s.block.ovfie = true

/-- The invariants of R35, with the canonical form and the contents of `ctl` and what an enabled
overflow interrupt and a programmed waveform imply. -/
structure State.Inv (s : State) : Prop where
  cfgWf : s.cfg.wf = true
  ctlWf : s.block.ctl.wf = true
  /-- the only addresses ever written are those of `CTL_SEQ`, with its values (R27) -/
  ctlOnly : ∀ a v, s.block.ctl.read a = some v → (a, v) ∈ s.profile.ctlSeq
  wavePrescale : s.block.wave = none ↔ s.block.prescale1 = false
  waveMode : ∀ m, s.block.wave = some m → m = s.profile.pwmMode ∧ s.block.pinDrive = true ∧
    s.Written s.profile.nW
  ovfieDone : s.block.ovfie = true → s.block.wave = some s.profile.pwmMode ∧
    s.block.prescale1 = true ∧ s.block.pinDrive = true ∧ s.Written s.profile.n
  runningDone : s.block.mode = .running → s.block.pinDrive = true ∧
    s.block.wave = some s.profile.pwmMode ∧ s.block.prescale1 = true ∧ s.block.ovfie = true ∧
    ∀ c ∈ s.profile.ctlSeq, s.block.ctl.read c.1 = some c.2
  pendingWave : s.block.ovfPending = true → s.block.wave ≠ none
  irqEnabled : s.block.irq = true → s.block.ovfie = true
  seqInv : s.SeqInv

/-- A label is a command word of a WRITE operation; the word alone tells the context that presents
it, main for BEGIN and the handler for WRITE (R10; DEDUCED, log entry 25). -/
def isWriteLabel : StepLabel → Bool
  | .cmd w =>
    match decode w with
    | .ok i => i.isWrite
    | .error _ => false
  | .seqstep => false
  | .ovf => false
  | .irqack => false
  | .reset => false

/-- The on-time property of R137, over the labels performed: between an `irqack` and the next
`ovf` there is exactly one WRITE. `opened` is the number of WRITEs since the last `irqack`, none
outside such a window; WRITEs outside a window are not counted (log entry 22). -/
def onTimeFrom : Option Nat → List StepLabel → Bool
  | _, [] => true
  | _, .irqack :: ls => onTimeFrom (some 0) ls
  | opened, .ovf :: ls => (opened == none || opened == some 1) && onTimeFrom none ls
  | _, .reset :: ls => onTimeFrom none ls
  | opened, .seqstep :: ls => onTimeFrom opened ls
  | opened, .cmd w :: ls =>
    onTimeFrom (if isWriteLabel (.cmd w) then opened.map (· + 1) else opened) ls

/-- A run is on time (R137). -/
def onTime (ls : List StepLabel) : Bool := onTimeFrom none ls

/-- A state with the three things no operation reads, `mode`, `duty` and `ctl`, blotted out (R21,
R22, R27). -/
def State.hideUnread (s : State) : State :=
  s.setBlock (((s.block.setMode .unconfigured).setDuty 0).setCtl [])

/-- One whole BEGIN with no other agent's step in it: the command and its `n + 2` micro-steps
(R91, R97). -/
def beginRun (p : Profile) : List StepLabel :=
  .cmd 0x10000#20 :: List.replicate (p.n + 2) .seqstep

/-- The sequencer's position once `j` micro-steps of a BEGIN have been performed (R97). -/
def positionAfter (p : Profile) (j : Nat) : SeqPos :=
  if j = 0 then .pin
  else if j ≤ p.n then .reg j
  else if j = p.n + 1 then .ret
  else .idle

/-- Where the host's start-up stands (R162): how far the BEGIN presented since the last reset has
come. -/
inductive StartUp where
  /-- no BEGIN was presented since the last reset -/
  | unbegun
  /-- the start-up's BEGIN is in progress; `left` micro-steps come before its `Ret` -/
  | begun (left : Nat)
  /-- it has returned; a further BEGIN is the host's liberty (R99, R149) -/
  | returned
  deriving DecidableEq, Repr

/-- Where the start-up stands after one more label, none where the label is a second BEGIN of the
start-up (R149, R162). DESIGN CHOICE, log entry 24: a reset begins a new start-up. -/
def StartUp.after (p : Profile) : StartUp → StepLabel → Option StartUp
  | _, .reset => some .unbegun
  | u, .ovf => some u
  | u, .irqack => some u
  | .begun 0, .seqstep => some .returned
  | .begun (k + 1), .seqstep => some (.begun k)
  | .unbegun, .seqstep => some .unbegun
  | .returned, .seqstep => some .returned
  | u, .cmd w =>
    if w = 0x10000#20 then
      match u with
      | .unbegun => some (.begun (p.n + 1))
      | .begun _ => none
      | .returned => some .returned
    else some u

/-- No start-up has a second BEGIN, where the first has come as far as `u` says. -/
def presentsBeginOnceFrom (p : Profile) : StartUp → List StepLabel → Bool
  | _, [] => true
  | u, l :: ls =>
    match u.after p l with
    | none => false
    | some v => presentsBeginOnceFrom p v ls

/-- The host's duty to present BEGIN once at start-up (R149, R162 (3)), over the labels performed
since a reset: from a reset until the `Ret` of its first BEGIN there is no second one; a BEGIN
after that `Ret` is allowed (R99). DESIGN CHOICE, log entry 24: it is counted anew after every
reset. That the BEGIN does come is `InfiniteRun.PresentsBegin`. -/
def presentsBeginOnce (p : Profile) (ls : List StepLabel) : Bool :=
  presentsBeginOnceFrom p .unbegun ls

/-- The host's duty to bind a handler before BEGIN enables the interrupt (R136, R149, R162 (2),
R163): while the interrupt is enabled a handler is bound to `IRQ_ID[VARIANT]`. -/
def State.dispatcherReady (s : State) : Bool := !s.block.ovfie || s.cfg.handlerBound

/-- An infinite run: a label and a state at every time, each step a transition (R171). -/
structure InfiniteRun where
  state : Nat → State
  label : Nat → StepLabel
  steps : ∀ k, transition (label k) (state k) = some (.next (state (k + 1)))

/-- Weak fairness of one label: it does not stay enabled for ever without being taken (R102, R132,
R136). It is a premise of a claim, never a rule of the step (log entry 16). -/
def InfiniteRun.WeaklyFair (r : InfiniteRun) (l : StepLabel) : Prop :=
  ∀ k, (∀ j, k ≤ j → enabled l (r.state j) = true) → ∃ j, k ≤ j ∧ r.label j = l

/-- The labels performed from time `i` on, `k` of them. -/
def InfiniteRun.labels (r : InfiniteRun) : Nat → Nat → List StepLabel
  | _, 0 => []
  | i, k + 1 => r.label i :: r.labels (i + 1) k

/-- The host does present its start-up's BEGIN (R149, R162 (3)): an unconfigured block with no
BEGIN in progress is given one, or reset first (log entry 24). -/
def InfiniteRun.PresentsBegin (r : InfiniteRun) : Prop :=
  ∀ k, (r.state k).block.mode = .unconfigured → (r.state k).block.seq = .idle →
    ∃ j, k ≤ j ∧ (r.label j = .cmd 0x10000#20 ∨ r.label j = .reset)

/-- The host's duties of R149, of a run that starts right after a reset (R38). They are premises a
claim may take, never rules of the block (R135): the block also makes the moves R149 calls
liberties, and a run that keeps the duties may use those of them that break no duty. -/
structure InfiniteRun.KeepsHostDuties (r : InfiniteRun) : Prop where
  /-- a handler is bound before BEGIN enables the interrupt -/
  binds : ∀ k, (r.state k).dispatcherReady = true
  /-- BEGIN is presented at start-up ... -/
  begins : r.PresentsBegin
  /-- ... and once -/
  beginsOnce : ∀ k, presentsBeginOnce (r.state 0).profile (r.labels 0 k) = true
  /-- an interrupt that is up is acknowledged, and so its handler invoked, eventually (R136) -/
  acknowledges : r.WeaklyFair .irqack
  /-- each invocation presents exactly one WRITE before the next overflow (R137) -/
  onTime : ∀ k, onTime (r.labels 0 k) = true

end Sys2Proof.Machine
end

