-- ==== Sys2Proof/Certificates/Slice0/Obligations.lean ====
section
/-! DEFINITION. The statements for the provers, each from a numbered rule of spec/. A statement
about a state quantifies over its configuration too, so over every profile the rules admit, and
over every free value. -/

open Sys2Proof Sys2Proof.Machine

/-! ### Encoding -/

/-- 30_encoding.md section 7: the worked command words decode to the operations they stand for. -/
def Obligations.WorkedCommandWordsDecode : Prop :=
  decode 0b00010000000000000000#20 = .ok .begin ∧
  decode 0b00100000000010000000#20 = .ok (.writeS8 (BitVec.ofInt 8 (-128))) ∧
  decode 0b00100000000001111111#20 = .ok (.writeS8 (BitVec.ofInt 8 127)) ∧
  decode 0b00110000000100101100#20 = .ok (.writeU16 300#16) ∧
  decode 0b01000000000011001000#20 = .ok (.writeS16 200#16) ∧
  decode 0b01001111111100111000#20 = .ok (.writeS16 (BitVec.ofInt 16 (-200))) ∧
  decode 0b00000000000000000000#20 = .error .unusedOp ∧
  decode 0b00010000000000000001#20 = .error .beginWithPayload ∧
  decode 0b00101111111110000000#20 = .error .writeS8HighByte

/-- Decoding the encoded word of any operation, with any operand, gives the operation back. -/
def Obligations.DecodeOfEncode : Prop :=
  ∀ i : Instr, i.wf = true → decode (encode i) = .ok i

/-- A word that decodes is the encoding of what it decodes to: each operation has one word. -/
def Obligations.EncodeOfDecode : Prop :=
  ∀ (w : CmdWord) (i : Instr), decode w = .ok i → encode i = w

/-- R76: the four rows; a word decodes to an operation exactly when it selects that operation's
row; no word selects two rows. -/
def Obligations.WordsSelectTheRowOfTheirOperation : Prop :=
  opcodeTable = [⟨"BEGIN", 0x10000#20, 0xFFFFF#20⟩, ⟨"WRITE.S8", 0x20000#20, 0xFFF00#20⟩,
    ⟨"WRITE.U16", 0x30000#20, 0xF0000#20⟩, ⟨"WRITE.S16", 0x40000#20, 0xF0000#20⟩] ∧
  (∀ (w : CmdWord) (i : Instr), decode w = .ok i →
    i.row ∈ opcodeTable ∧ w &&& i.row.mask = i.row.matchBits) ∧
  (∀ (w : CmdWord), ∀ r ∈ opcodeTable, w &&& r.mask = r.matchBits →
    ∃ i, decode w = .ok i ∧ i.row = r) ∧
  (∀ (w : CmdWord), ∀ r ∈ opcodeTable, ∀ q ∈ opcodeTable,
    w &&& r.mask = r.matchBits → w &&& q.mask = q.matchBits → r = q)

/-- R75: where the operand's bits stand in the word, and the value they are read as. -/
def Obligations.OperandsAreAssembledFromThePayload : Prop :=
  ∀ w : CmdWord,
    (∀ b, decode w = .ok (.writeS8 b) → w.toNat / 2 ^ 8 % 2 ^ 8 = 0 ∧
      operandS8 b = if w.toNat % 2 ^ 8 < 2 ^ 7 then (w.toNat % 2 ^ 8 : Int)
        else w.toNat % 2 ^ 8 - 2 ^ 8) ∧
    (∀ b, decode w = .ok (.writeU16 b) → operandU16 b = w.toNat % 2 ^ 16) ∧
    (∀ b, decode w = .ok (.writeS16 b) →
      operandS16 b = if w.toNat % 2 ^ 16 < 2 ^ 15 then (w.toNat % 2 ^ 16 : Int)
        else w.toNat % 2 ^ 16 - 2 ^ 16) ∧
    (decode w = .ok .begin → w.toNat % 2 ^ 16 = 0)

/-- R77's three classes of reserved words, by the word's number. -/
def Obligations.ReservedWordsAreNamedByTheirClass : Prop :=
  ∀ w : CmdWord,
    (decode w = .error .unusedOp ↔
      w.toNat / 2 ^ 16 = 0 ∨ 5 ≤ w.toNat / 2 ^ 16 ∧ w.toNat / 2 ^ 16 ≤ 15) ∧
    (decode w = .error .beginWithPayload ↔ w.toNat / 2 ^ 16 = 1 ∧ w.toNat % 2 ^ 16 ≠ 0) ∧
    (decode w = .error .writeS8HighByte ↔
      w.toNat / 2 ^ 16 = 2 ∧ w.toNat / 2 ^ 8 % 2 ^ 8 ≠ 0)

/-! ### The converter -/

/-- R111, R112 and R113: the three conversion functions over the legal ranges of R71, with the
rules' corner cases. -/
def Obligations.ConversionsAreAsTheRulesGiveThem : Prop :=
  (∀ s : Int, -128 ≤ s → s ≤ 127 →
    fromSigned8 s = s + 128 ∧ 0 ≤ fromSigned8 s ∧ fromSigned8 s ≤ 255) ∧
  (fromSigned8 (-128) = 0 ∧ fromSigned8 127 = 255 ∧ fromSigned8 0 = 128 ∧
    fromSigned8 (-1) = 127) ∧
  (∀ s : Int, 0 ≤ s → s ≤ 65535 →
    (s ≤ 255 → fromUnsigned16 s = s) ∧ (255 < s → fromUnsigned16 s = 255)) ∧
  (fromUnsigned16 0 = 0 ∧ fromUnsigned16 255 = 255 ∧ fromUnsigned16 256 = 255 ∧
    fromUnsigned16 65535 = 255 ∧ fromUnsigned16 300 = 255 ∧ fromUnsigned16 200 = 200) ∧
  (∀ s : Int, -32768 ≤ s → s ≤ 32767 →
    (127 < s → fromSigned16 s = 255) ∧ (s < -128 → fromSigned16 s = 0) ∧
    (-128 ≤ s → s ≤ 127 → fromSigned16 s = s + 128 ∧ fromSigned16 s = fromSigned8 s)) ∧
  (fromSigned16 127 = 255 ∧ fromSigned16 128 = 255 ∧ fromSigned16 (-128) = 0 ∧
    fromSigned16 (-129) = 0 ∧ fromSigned16 32767 = 255 ∧ fromSigned16 (-32768) = 0 ∧
    fromSigned16 0 = 128 ∧ fromSigned16 200 = 255 ∧ fromSigned16 (-200) = 0)

/-- R114: the bit-level forms compute the three conversion functions on every pattern. -/
def Obligations.BitFormsComputeTheConversions : Prop :=
  (∀ b : Byte, uN (fromSigned8Bits b) = fromSigned8 (operandS8 b)) ∧
  (∀ b : Half, uN (fromUnsigned16Bits b) = fromUnsigned16 (operandU16 b)) ∧
  (∀ b : Half, uN (fromSigned16Bits b) = fromSigned16 (operandS16 b))

/-- R121: for every operand of every kind the result is in [0,255], so `bits_8` drops nothing. -/
def Obligations.ConversionsStayInTheDutyRange : Prop :=
  ∀ p : Sample, 0 ≤ dutyOf p ∧ dutyOf p ≤ 255 ∧ uN (bitsN 8 (dutyOf p)) = dutyOf p

/-- R122: where the conversions are strictly increasing, constant and non-decreasing, over the
legal ranges of R71. -/
def Obligations.ConversionsAreMonotone : Prop :=
  (∀ s t : Int, -128 ≤ s → s < t → t ≤ 127 →
    fromSigned8 s < fromSigned8 t ∧ fromSigned16 s < fromSigned16 t) ∧
  (∀ s : Int, -32768 ≤ s → s ≤ -128 → fromSigned16 s = 0) ∧
  (∀ s : Int, 127 ≤ s → s ≤ 32767 → fromSigned16 s = 255) ∧
  (∀ s t : Int, -32768 ≤ s → s ≤ t → t ≤ 32767 → fromSigned16 s ≤ fromSigned16 t) ∧
  (∀ s t : Int, 0 ≤ s → s < t → t ≤ 255 → fromUnsigned16 s < fromUnsigned16 t) ∧
  (∀ s : Int, 255 ≤ s → s ≤ 65535 → fromUnsigned16 s = 255) ∧
  (∀ s t : Int, 0 ≤ s → s ≤ t → t ≤ 65535 → fromUnsigned16 s ≤ fromUnsigned16 t)

/-! ### The operations -/

/-- R91: BEGIN starts the sequencer and changes nothing else, in either mode; with a BEGIN in
progress it is refused. -/
def Obligations.BeginStartsTheSequencer : Prop :=
  decode 0x10000#20 = .ok .begin ∧
  ∀ s : State,
    (s.block.seq = .idle →
      exec .begin s = .next { s with block := { s.block with seq := .pin } }) ∧
    (s.block.seq ≠ .idle → exec .begin s = .refused .beginWhileBeginInProgress)

/-- R115: WRITE.S8 leaves `s + 128` in the duty register and writes nothing else. -/
def Obligations.WriteS8SetsTheDuty : Prop :=
  (∀ b : Byte, decode (0x200#12 ++ b) = .ok (.writeS8 b)) ∧
  ∀ (b : Byte) (s : State), s.secondWriter = false →
    ∃ d : Byte, exec (.writeS8 b) s = .next { s with block := { s.block with duty := d } } ∧
      (d.toNat : Int) = b.toInt + 128

/-- R116: WRITE.U16 leaves `min(s, 255)` in the duty register and writes nothing else. -/
def Obligations.WriteU16SetsTheDuty : Prop :=
  (∀ b : Half, decode (0x3#4 ++ b) = .ok (.writeU16 b)) ∧
  ∀ (b : Half) (s : State), s.secondWriter = false →
    ∃ d : Byte, exec (.writeU16 b) s = .next { s with block := { s.block with duty := d } } ∧
      d.toNat = min b.toNat 255

/-- R117: WRITE.S16 leaves `clamp(s, -128, 127) + 128` in the duty register and writes nothing
else. -/
def Obligations.WriteS16SetsTheDuty : Prop :=
  (∀ b : Half, decode (0x4#4 ++ b) = .ok (.writeS16 b)) ∧
  ∀ (b : Half) (s : State), s.secondWriter = false →
    ∃ d : Byte, exec (.writeS16 b) s = .next { s with block := { s.block with duty := d } } ∧
      (d.toNat : Int) = max (-128) (min b.toInt 127) + 128

/-- R118: a WRITE is accepted in every mode and at every position, with the same effect. -/
def Obligations.WritesHaveOneEffectInEveryState : Prop :=
  ∀ i : Instr, i.isWrite = true → ∃ d : Byte, ∀ s : State, s.secondWriter = false →
    exec i s = .next { s with block := { s.block with duty := d } }

/-- Frame of the three WRITEs: the stored byte is the one at `DUTY_ADDR`, every other address of
the register space reads as before, and so does every field but `duty`. -/
def Obligations.WriteFrame : Prop :=
  ∀ (i : Instr) (s t : State), i.isWrite = true → exec i s = .next t →
    (∀ a, a = s.profile.dutyAddr → t.regSpace a = some t.block.duty ∧
      ∀ x, x ≠ a → t.regSpace x = s.regSpace x) ∧
    t.block.mode = s.block.mode ∧ t.block.seq = s.block.seq ∧
    t.block.ovfPending = s.block.ovfPending ∧ t.block.ctl = s.block.ctl ∧
    t.block.wave = s.block.wave ∧ t.block.prescale1 = s.block.prescale1 ∧
    t.block.ovfie = s.block.ovfie ∧ t.block.pinDrive = s.block.pinDrive ∧
    t.cfg = s.cfg ∧ t.refusalMark = s.refusalMark ∧ t.secondWriter = s.secondWriter ∧
    t.sched = s.sched ∧ t.draws = s.draws

/-- Frame of BEGIN, which stores nothing: every address of the register space reads as before,
and every field but `seq` is unchanged. -/
def Obligations.BeginFrame : Prop :=
  ∀ (s t : State), exec .begin s = .next t →
    (∀ x, t.regSpace x = s.regSpace x) ∧ t.block.duty = s.block.duty ∧
    t.block.mode = s.block.mode ∧ t.block.ovfPending = s.block.ovfPending ∧
    t.block.ctl = s.block.ctl ∧ t.block.wave = s.block.wave ∧
    t.block.prescale1 = s.block.prescale1 ∧ t.block.ovfie = s.block.ovfie ∧
    t.block.pinDrive = s.block.pinDrive ∧ t.cfg = s.cfg ∧ t.refusalMark = s.refusalMark ∧
    t.secondWriter = s.secondWriter ∧ t.sched = s.sched ∧ t.draws = s.draws

/-- R26: no operation reports that it clamped: two samples, of any kinds, with the same duty leave
the same state (or the same refusal). -/
def Obligations.ClampingLeavesNoTrace : Prop :=
  ∀ (p q : Sample) (s : State), dutyOf p = dutyOf q →
    exec (.write p) s = exec (.write q) s

/-- R59: where the host declares a second writer, every WRITE is refused, and so is every step of
an accepted configuration. -/
def Obligations.SecondWriterIsRefused : Prop :=
  ∀ s : State, s.secondWriter = true →
    (∀ i : Instr, i.isWrite = true → exec i s = .refused .secondWriter) ∧
    (s.cfg.wf = true → step s = .refused .secondWriter)

/-- R77: in an admitted run a reserved word is refused by its class, there is no next state, and
the watched run holds the refusal mark. -/
def Obligations.ReservedWordIsRefused : Prop :=
  ∀ (s : State) (w : CmdWord) (rest : List StepLabel) (why : ReservedWord), s.Admitted →
    s.sched = .cmd w :: rest → decode w = .error why →
      step s = .refused (.reservedWord why) ∧ (advance s).refusalMark = true

/-! ### The register space -/

/-- R50's `RegWrite` at the duty address, at a control register, and anywhere else. For an address
that is both, which no accepted configuration has (R32), the first clause is the model's choice:
log entry 13 (DEDUCED). -/
def Obligations.RegWriteReplacesOneRegister : Prop :=
  ∀ (a : Addr) (v : Byte) (s : State),
    (a = s.profile.dutyAddr →
      regWrite a v s = .next { s with block := { s.block with duty := v } }) ∧
    (a ≠ s.profile.dutyAddr → a ∈ s.profile.ctlSeq.map Prod.fst →
      ∃ c : Memory, regWrite a v s = .next { s with block := { s.block with ctl := c } } ∧
        c.read a = some v ∧ ∀ x, x ≠ a → c.read x = s.block.ctl.read x) ∧
    (a ≠ s.profile.dutyAddr → a ∉ s.profile.ctlSeq.map Prod.fst →
      regWrite a v s = .refused (.notARegister a))

/-- R55: writing the value a register already holds leaves the state unchanged. -/
def Obligations.RegWriteOfTheHeldValueChangesNothing : Prop :=
  ∀ (a : Addr) (v : Byte) (s : State), s.block.ctl.wf = true →
    a = s.profile.dutyAddr ∨ a ∈ s.profile.ctlSeq.map Prod.fst →
    s.regSpace a = some v → regWrite a v s = .next s

/-! ### BEGIN's micro-steps -/

/-- R92. -/
def Obligations.PinMicroStepDrivesThePin : Prop :=
  ∀ s : State, s.block.seq = .pin →
    seqstep s = some (.next { s with block := { s.block with pinDrive := true, seq := .reg 1 } })

/-- R93, R94 and R95: micro-step Reg(k) writes the k-th pair, completes the wave group at
`k = nW` and the irq group at `k = n`, and moves on; the two never coincide. -/
def Obligations.RegMicroStepWritesThePair : Prop :=
  ∀ (s : State) (k : Nat) (a : Addr) (v : Byte), s.cfg.wf = true →
    s.block.seq = .reg k → 1 ≤ k → s.profile.ctlSeq[k - 1]? = some (a, v) →
    s.profile.nW < s.profile.n ∧
    seqstep s = some (.next { s with block :=
      { s.block with
        ctl := s.block.ctl.write a v
        wave := if k = s.profile.nW then some s.profile.pwmMode else s.block.wave
        prescale1 := if k = s.profile.nW then true else s.block.prescale1
        ovfie := if k = s.profile.n then true else s.block.ovfie
        seq := if k < s.profile.n then .reg (k + 1) else .ret } })

/-- Frame of micro-step Reg(k) in memory: the byte stored to is the one at the k-th pair's
address, it reads as the pair's value, and every other address reads as before. -/
def Obligations.RegMicroStepFrame : Prop :=
  ∀ (s t : State) (k : Nat) (c : Host.Cell), s.cfg.wf = true → s.block.seq = .reg k →
    1 ≤ k → s.profile.ctlSeq[k - 1]? = some c → seqstep s = some (.next t) →
    t.regSpace c.1 = some c.2 ∧ (∀ x, x ≠ c.1 → t.regSpace x = s.regSpace x) ∧
    t.block.duty = s.block.duty ∧ t.block.mode = s.block.mode ∧
    t.block.ovfPending = s.block.ovfPending ∧ t.block.pinDrive = s.block.pinDrive ∧
    t.cfg = s.cfg ∧ t.refusalMark = s.refusalMark ∧ t.secondWriter = s.secondWriter ∧
    t.sched = s.sched ∧ t.draws = s.draws

/-- R96. -/
def Obligations.RetMicroStepEntersRunning : Prop :=
  ∀ s : State, s.block.seq = .ret →
    seqstep s = some (.next { s with block := { s.block with mode := .running, seq := .idle } })

/-- R24: a `seqstep` advances `seq` by exactly one position; nothing else writes it but an
accepted BEGIN, which sets it to Pin, and reset. -/
def Obligations.SequencerAdvancesOnePosition : Prop :=
  ∀ (l : StepLabel) (s t : State), transition l s = some (.next t) →
    match l with
    | .seqstep =>
      (s.block.seq = .pin ∧ t.block.seq = .reg 1) ∨
      (∃ k, s.block.seq = .reg k ∧ 1 ≤ k ∧ k < s.profile.n ∧ t.block.seq = .reg (k + 1)) ∨
      (s.block.seq = .reg s.profile.n ∧ t.block.seq = .ret) ∨
      (s.block.seq = .ret ∧ t.block.seq = .idle)
    | .cmd w =>
      if decode w = .ok .begin then s.block.seq = .idle ∧ t.block.seq = .pin
      else t.block.seq = s.block.seq
    | .reset => t.block.seq = .idle
    | .ovf => t.block.seq = s.block.seq
    | .irqack => t.block.seq = s.block.seq

/-- R97: without other agents' steps, the micro-steps of a BEGIN happen in the order Pin, Reg(1)
to Reg(n), Ret, each once, and the first `j - 1` pairs have been written by the `j`-th. -/
def Obligations.BeginRunsThroughItsPositions : Prop :=
  ∀ (s : State) (j : Nat), s.Admitted → s.block.seq = .idle → j ≤ s.profile.n + 2 →
    ∃ t, runLabels (.cmd 0x10000#20 :: List.replicate j .seqstep) s = some (.next t) ∧
      t.block.seq = positionAfter s.profile j ∧ t.Written (j - 1) ∧
      (1 ≤ j → t.block.pinDrive = true) ∧
      (s.profile.nW < j → t.block.wave = some s.profile.pwmMode ∧ t.block.prescale1 = true) ∧
      (s.profile.n < j → t.block.ovfie = true)

/-- R91 to R98: a whole BEGIN, presented in any admitted state with no BEGIN in progress,
completes, with the configuration programmed and `duty` and `ovfPending` left alone. -/
def Obligations.BeginCompletesAndConfigures : Prop :=
  ∀ s : State, s.Admitted → s.block.seq = .idle →
    ∃ c : Memory, runLabels (beginRun s.profile) s = some (.next { s with block :=
        { s.block with
          mode := .running
          seq := .idle
          ctl := c
          wave := some s.profile.pwmMode
          prescale1 := true
          ovfie := true
          pinDrive := true } }) ∧
      (∀ p ∈ s.profile.ctlSeq, c.read p.1 = some p.2) ∧
      (∀ x, x ∉ s.profile.ctlSeq.map Prod.fst → c.read x = s.block.ctl.read x)

/-- R103: with no other agent's step between the micro-steps, the sequential BEGIN and BEGIN as
one atomic action give the same state. -/
def Obligations.SequentialBeginRefinesAtomicBegin : Prop :=
  ∀ s : State, s.Admitted → s.block.seq = .idle →
    ∃ t, atomicBegin s = .next t ∧ runLabels (beginRun s.profile) s = some (.next t)

/-- R99: a BEGIN that runs to completion from a Running state, with no other step between, leaves
the state equal in every field. -/
def Obligations.RepeatedBeginChangesNothing : Prop :=
  ∀ s : State, s.Inv → s.Admitted → s.block.mode = .running → s.block.seq = .idle →
    runLabels (beginRun s.profile) s = some (.next s)

/-- R99, with other agents' steps between: in a Running state a micro-step changes no field but
the position, and every other step but a reset or a BEGIN has the effect it has at any other
position. -/
def Obligations.RepeatedBeginInterleavesHarmlessly : Prop :=
  (∀ s t : State, s.Inv → s.block.mode = .running → transition .seqstep s = some (.next t) →
    t = { s with block := { s.block with seq := t.block.seq } }) ∧
  (∀ (l : StepLabel) (s : State) (q : SeqPos), l = .ovf ∨ l = .irqack ∨ isWriteLabel l = true →
    transition l { s with block := { s.block with seq := q } } =
      (transition l s).map
        (mapNext fun t => { t with block := { t.block with seq := q } }))

/-- R98: no micro-step writes `duty` or `ovfPending`, and none clears anything. -/
def Obligations.MicroStepsClearNothing : Prop :=
  ∀ s t : State, transition .seqstep s = some (.next t) →
    t.block.duty = s.block.duty ∧ t.block.ovfPending = s.block.ovfPending ∧
    (s.block.pinDrive = true → t.block.pinDrive = true) ∧
    (s.block.wave ≠ none → t.block.wave ≠ none) ∧
    (s.block.prescale1 = true → t.block.prescale1 = true) ∧
    (s.block.ovfie = true → t.block.ovfie = true)

/-- R102: nothing makes the sequencer wait. -/
def Obligations.SequencerNeverWaits : Prop :=
  ∀ s : State, s.Inv → s.Admitted → s.block.seq ≠ .idle →
    ∃ t, transition .seqstep s = some (.next t)

/-- R102: under weak fairness of the sequencer a BEGIN in progress completes, whatever the other
agents do short of a reset. -/
def Obligations.FairBeginCompletes : Prop :=
  ∀ r : InfiniteRun, r.WeaklyFair .seqstep → (r.state 0).Inv → (∀ k, r.label k ≠ .reset) →
    ∀ k, (r.state k).block.seq ≠ .idle →
      ∃ j, k ≤ j ∧ (r.state j).block.seq = .idle ∧ (r.state j).block.mode = .running

/-- R149 and R162, the start-up duties; rests on log entry 24 (DESIGN CHOICE: a start-up is counted
anew after every reset) and log entry 16 (fairness is a premise). In every run from reset that is
not refused no start-up has a second BEGIN, whatever liberties the host takes, since R100 refuses
it; and a host that keeps its duties gets a block that is Running from some time on. -/
def Obligations.StartUpDutiesLeadToRunning : Prop :=
  (∀ (c : Config) (ls : List StepLabel) (t : State), c.wf = true →
    runLabels ls (State.resetOf c) = some (.next t) → presentsBeginOnce c.active ls = true) ∧
  ∀ (r : InfiniteRun) (c : Config), c.wf = true → r.state 0 = State.resetOf c →
    r.KeepsHostDuties → r.WeaklyFair .seqstep → (∀ k, r.label k ≠ .reset) →
    ∃ k, ∀ j, k ≤ j → (r.state j).block.mode = .running ∧ (r.state j).block.ovfie = true ∧
      (r.state j).cfg.handlerBound = true

/-! ### The overflow interrupt -/

/-- R132: `ovf` is enabled exactly while the timer runs, and then sets `ovfPending` and nothing
else. -/
def Obligations.OverflowSetsThePendingFlag : Prop :=
  ∀ s : State, s.Admitted →
    (s.block.wave ≠ none ∧ s.block.prescale1 = true →
      transition .ovf s = some (.next { s with block := { s.block with ovfPending := true } })) ∧
    (¬(s.block.wave ≠ none ∧ s.block.prescale1 = true) → transition .ovf s = none)

/-- R134: `irqack` is enabled exactly when `irq = 1`, clears `ovfPending` and nothing else, and
after it `irq` is 0 until the next `ovf`. -/
def Obligations.AcknowledgeClearsThePendingFlag : Prop :=
  ∀ s : State, s.Admitted →
    (s.block.ovfPending = true ∧ s.block.ovfie = true →
      transition .irqack s =
        some (.next { s with block := { s.block with ovfPending := false } })) ∧
    (¬(s.block.ovfPending = true ∧ s.block.ovfie = true) → transition .irqack s = none) ∧
    (∀ (t u : State) (ls : List StepLabel), transition .irqack s = some (.next t) →
      StepLabel.ovf ∉ ls → runLabels ls t = some (.next u) → u.block.irq = false)

/-- R25: what each label does to the block's only flag. -/
def Obligations.PendingFlagIsWrittenByOvfAckAndResetOnly : Prop :=
  ∀ (l : StepLabel) (s t : State), transition l s = some (.next t) →
    t.block.ovfPending =
      match l with
      | .ovf => true
      | .irqack => false
      | .reset => false
      | .cmd _ => s.block.ovfPending
      | .seqstep => s.block.ovfPending

/-- R133: overflows merge, and in every run that starts with no overflow pending (as a reset
leaves it) the acknowledges are at most as many as the overflows. -/
def Obligations.OverflowsMergeAndBoundAcknowledges : Prop :=
  (∀ s t : State, transition .ovf s = some (.next t) → transition .ovf t = some (.next t)) ∧
  (∀ (ls : List StepLabel) (s t : State), s.block.ovfPending = false →
    runLabels ls s = some (.next t) → ls.count .irqack ≤ ls.count .ovf)

/-- R132 and R136, the fairness halves: short of a reset, a running timer overflows again, and an
interrupt that is up is acknowledged. -/
def Obligations.FairTimerAndDispatcherRecur : Prop :=
  ∀ r : InfiniteRun, (∀ k, r.label k ≠ .reset) →
    (r.WeaklyFair .ovf → ∀ k, (r.state k).block.timerRuns = true →
      ∃ j, k ≤ j ∧ r.label j = .ovf) ∧
    (r.WeaklyFair .irqack → ∀ k, (r.state k).block.irq = true →
      ∃ j, k ≤ j ∧ r.label j = .irqack)

/-- R37: the two outputs, and that the pin follows a WRITE in the same step. -/
def Obligations.OutputsFollowTheState : Prop :=
  (∀ s : State, s.irqLine =
    if s.block.ovfPending = true ∧ s.block.ovfie = true then some s.profile.irqId else none) ∧
  (∀ b : Block, (b.pinDrive = false → b.pwmOut = .undriven) ∧
    (b.pinDrive = true → b.wave = none → b.pwmOut = .drivenUnspecified) ∧
    (∀ m, b.pinDrive = true → b.wave = some m → b.pwmOut = .pwm m b.duty.toNat)) ∧
  (∀ (b : Half) (s t : State) (m : PwmMode), s.block.pinDrive = true → s.block.wave = some m →
    exec (.writeU16 b) s = .next t → t.block.pwmOut = .pwm m (min b.toNat 255))

/-- R138: without a WRITE or a reset `duty` keeps its value whatever else happens; of two WRITEs
the second stands; an `ovf` that finds the flag set changes nothing. -/
def Obligations.MissedDeadlinesHarmNothing : Prop :=
  (∀ (ls : List StepLabel) (s t : State),
    (∀ l ∈ ls, isWriteLabel l = false ∧ l ≠ .reset) →
    runLabels ls s = some (.next t) → t.block.duty = s.block.duty) ∧
  (∀ (p q : Sample) (s t : State), exec (.write p) s = .next t →
    exec (.write q) t = exec (.write q) s) ∧
  (∀ s t : State, s.block.ovfPending = true → transition .ovf s = some (.next t) → t = s)

/-- R137: in a run that is on time, the duty at the `ovf` that ends a period is the one its only
WRITE computes. -/
def Obligations.OnTimePeriodPlaysItsSample : Prop :=
  ∀ (ls : List StepLabel) (s t : State), StepLabel.ovf ∉ ls → StepLabel.reset ∉ ls →
    onTime (.irqack :: ls ++ [.ovf]) = true →
    runLabels (.irqack :: ls ++ [.ovf]) s = some (.next t) →
    ∃ p : Sample, .cmd (encode (.write p)) ∈ ls ∧ uN t.block.duty = dutyOf p

/-! ### Reset, configuration, and the whole machine -/

/-- R160: the reset step, from every state of an accepted machine: every field of the block is as
R36 says (the duty register is a draw, about which nothing is said), the configuration and the
refusal mark are kept, and the timer, the interrupt and the pin are off. -/
def Obligations.ResetStepClearsTheBlock : Prop :=
  ∀ s : State, s.cfg.wf = true → s.secondWriter = false →
    ∃ t, transition .reset s = some (.next t) ∧
      t.block.mode = .unconfigured ∧ t.block.seq = .idle ∧ t.block.ovfPending = false ∧
      t.block.ctl = [] ∧ t.block.wave = none ∧ t.block.prescale1 = false ∧
      t.block.ovfie = false ∧ t.block.pinDrive = false ∧
      t.cfg = s.cfg ∧ t.refusalMark = s.refusalMark ∧ t.secondWriter = s.secondWriter ∧
      t.sched = s.sched ∧ enabled .ovf t = false ∧ t.block.irq = false ∧
      t.block.pwmOut = .undriven

/-- The machine's state after reset has R36's values and, for every accepted configuration, the
invariant. -/
def Obligations.ResetStateMeetsTheInvariant : Prop :=
  State.reset.block =
    { mode := .unconfigured, duty := State.reset.block.duty, seq := .idle, ovfPending := false,
      ctl := [], wave := none, prescale1 := false, ovfie := false, pinDrive := false } ∧
  State.reset.Inv ∧ ∀ c : Config, c.wf = true → (State.resetOf c).Inv

/-- Every step keeps the invariant, from every state that meets it. -/
def Obligations.StepKeepsTheInvariant : Prop :=
  ∀ s t : State, s.Inv → step s = .next t → t.Inv

/-- R35: the invariants hold in every state reachable from reset, for every accepted
configuration and every interleaving of the five labels. -/
def Obligations.ReachableStatesMeetTheInvariants : Prop :=
  ∀ (c : Config) (ls : List StepLabel) (t : State), c.wf = true →
    runLabels ls (State.resetOf c) = some (.next t) →
    (0 ≤ uN t.block.duty ∧ uN t.block.duty ≤ 255) ∧
    (t.block.wave = none ↔ t.block.prescale1 = false) ∧
    (t.block.ovfie = true → t.block.wave = some c.active.pwmMode ∧ t.block.prescale1 = true ∧
      t.block.pinDrive = true) ∧
    (t.block.mode = .running → t.block.pinDrive = true ∧
      t.block.wave = some c.active.pwmMode ∧ t.block.prescale1 = true ∧
      t.block.ovfie = true ∧ ∀ p ∈ c.active.ctlSeq, t.block.ctl.read p.1 = some p.2) ∧
    (t.block.ovfPending = true → t.block.wave ≠ none) ∧
    (t.block.irq = true → t.block.ovfie = true)

/-- R21: `mode` is written by the last micro-step of BEGIN, which sets it to Running, and by reset,
which sets it to Unconfigured; and no step's effect depends on it. -/
def Obligations.ModeIsARecordOfHistory : Prop :=
  (∀ (l : StepLabel) (s t : State), transition l s = some (.next t) →
    t.block.mode =
      if l = .reset then .unconfigured
      else if l = .seqstep ∧ s.block.seq = .ret then .running
      else s.block.mode) ∧
  (∀ (l : StepLabel) (s : State) (m : Mode),
    (transition l (s.setBlock (s.block.setMode m))).map
        (mapNext fun t => t.setBlock (t.block.setMode .unconfigured)) =
      (transition l s).map (mapNext fun t => t.setBlock (t.block.setMode .unconfigured)))

/-- R22: `duty` is the register at `DUTY_ADDR`, written by the WRITEs and by reset and by nothing
else, and no step reads it back: a write replaces all of it. -/
def Obligations.DutyIsWrittenByWritesAndResetOnly : Prop :=
  (∀ s : State, s.regSpace s.profile.dutyAddr = some s.block.duty) ∧
  (∀ (l : StepLabel) (s t : State), transition l s = some (.next t) →
    isWriteLabel l = false → l ≠ .reset → t.block.duty = s.block.duty) ∧
  (∀ (l : StepLabel) (s : State) (d : Byte),
    (transition l (s.setBlock (s.block.setDuty d))).map
        (mapNext fun t => t.setBlock (t.block.setDuty 0)) =
      (transition l s).map (mapNext fun t => t.setBlock (t.block.setDuty 0))) ∧
  (∀ (w : CmdWord) (s : State) (d : Byte), isWriteLabel (.cmd w) = true →
    transition (.cmd w) (s.setBlock (s.block.setDuty d)) = transition (.cmd w) s)

/-- R101: short of a reset nothing stops the timer, disables the interrupt, releases the pin or
returns `mode` to Unconfigured. -/
def Obligations.OnlyResetStopsTheBlock : Prop :=
  ∀ (ls : List StepLabel) (s t : State), StepLabel.reset ∉ ls →
    runLabels ls s = some (.next t) →
    (s.block.timerRuns = true → t.block.timerRuns = true) ∧
    (s.block.ovfie = true → t.block.ovfie = true) ∧
    (s.block.pinDrive = true → t.block.pinDrive = true) ∧
    (s.block.mode = .running → t.block.mode = .running)

/-- R54 (with R21, R22, R27): no step's effect depends on `mode`, `duty` or `ctl`. Two
states that differ only there stay so, and have the same steps and the same refusals. -/
def Obligations.NoStepReadsModeDutyOrControlRegisters : Prop :=
  ∀ (l : StepLabel) (s u : State), s.hideUnread = u.hideUnread →
    (transition l s).map (mapNext State.hideUnread) =
      (transition l u).map (mapNext State.hideUnread)

/-- R130, R11: no step faults, and in an admitted run of a state that meets the invariant the only
refusals are a reserved word and a BEGIN while a BEGIN is in progress. -/
def Obligations.OnlyReservedWordsAndNestedBeginsAreRefused : Prop :=
  (∀ (s : State) (r : Fault), step s ≠ .fault r) ∧
  ∀ (l : StepLabel) (s : State) (r : Refusal), s.Inv → s.Admitted →
    transition l s = some (.refused r) →
    (∃ w why, l = .cmd w ∧ decode w = .error why ∧ r = .reservedWord why) ∨
    (l = .cmd 0x10000#20 ∧ s.block.seq ≠ .idle ∧ r = .beginWhileBeginInProgress)

/-- R90: `resolve`, with the pins of R31. -/
def Obligations.ResolveSelectsTheVariant : Prop :=
  ∀ (c : Config) (t : String), c.targetsDisjoint = true →
    (t ∈ c.targetsA → c.resolve t = c.hardwareProfile .variantA ∧ (c.resolve t).outputPin = 11) ∧
    (t ∈ c.targetsB → c.resolve t = c.hardwareProfile .variantB ∧ (c.resolve t).outputPin = 3) ∧
    (t ∉ c.targetsA → t ∉ c.targetsB →
      c.resolve t = c.hardwareProfile .variantDefault ∧ (c.resolve t).outputPin = 3)

/-- R32: a machine whose profile is not well formed is refused at every step; one whose profile
is, and whose target sets are disjoint, is not refused for its configuration. -/
def Obligations.IllFormedProfilesAreRefused : Prop :=
  ∀ s : State,
    (¬(s.profile.waveSeq ≠ [] ∧ s.profile.irqSeq ≠ [] ∧
        (s.profile.ctlSeq.map Prod.fst).Nodup ∧
        s.profile.dutyAddr ∉ s.profile.ctlSeq.map Prod.fst) →
      step s = .refused .configNotAccepted) ∧
    (s.profile.waveSeq ≠ [] → s.profile.irqSeq ≠ [] →
      (s.profile.ctlSeq.map Prod.fst).Nodup →
      s.profile.dutyAddr ∉ s.profile.ctlSeq.map Prod.fst →
      (∀ t ∈ s.cfg.targetsA, t ∉ s.cfg.targetsB) →
      step s ≠ .refused .configNotAccepted)

/-- R30: no step writes the configuration. That no step writes the host's declaration of a second
writer is the model's choice, log entry 9 (DESIGN CHOICE); that a step that answers a next state
leaves the refusal mark of R11 as it was is log entry 8 (DESIGN CHOICE). -/
def Obligations.NoStepChangesTheConfiguration : Prop :=
  ∀ s t : State, step s = .next t →
    t.cfg = s.cfg ∧ t.secondWriter = s.secondWriter ∧ t.refusalMark = s.refusalMark

/-- R11: a refusal marks the watched run, and the mark is kept for the rest of the run, through
resets too. -/
def Obligations.RefusalMarkIsKept : Prop :=
  (∀ (s : State) (r : Refusal), step s = .refused r → (advance s).refusalMark = true) ∧
  (∀ (s : State) (k : Nat), s.refusalMark = true → (advances k s).refusalMark = true)

/-- A step runs the decoded operation: where the next offer is a command word that decodes to `i`,
the step is exec of `i` on the state with that offer taken. -/
def Obligations.StepRunsTheDecodedOperation : Prop :=
  ∀ (s : State) (w : CmdWord) (rest : List StepLabel) (i : Instr), s.Admitted →
    s.sched = .cmd w :: rest → decode w = .ok i →
    step s = exec i { s with sched := rest }

/-- Model's convention (log entry 1): a step takes the oldest offer; where the block has that
transition it is the step, and where the label is not enabled nothing changes but the offer. -/
def Obligations.StepTakesTheOldestOffer : Prop :=
  ∀ (s : State) (l : StepLabel) (rest : List StepLabel), s.sched = l :: rest →
    (∀ o, transition l { s with sched := rest } = some o → step s = o) ∧
    (transition l { s with sched := rest } = none → step s = .next { s with sched := rest })

/-- R12: the operation level and the command-word level agree. -/
def Obligations.OperationAndWordLevelsAgree : Prop :=
  ∀ (s : State) (i : Instr), s.Admitted → transition (.cmd (encode i)) s = some (exec i s)
end

