-- ==== Sys2Proof/Laws/Decode.lean ====
section
/-! SUPPORT. The fields of a command word and the encoder's words as numbers, so that statements
about decoding become linear arithmetic. -/

namespace Sys2Proof

theorem opField_toNat (w : CmdWord) : (opField w).toNat = w.toNat / 65536 := by
  have := w.isLt
  simp [opField, Nat.shiftRight_eq_div_pow]
  omega

theorem payload_toNat (w : CmdWord) : (payload w).toNat = w.toNat % 65536 := by
  simp [payload]

theorem payloadHigh_toNat (w : CmdWord) : (payloadHigh w).toNat = w.toNat / 256 % 256 := by
  simp [payloadHigh, Nat.shiftRight_eq_div_pow]

theorem payloadLow_toNat (w : CmdWord) : (payloadLow w).toNat = w.toNat % 256 := by
  simp [payloadLow]

theorem opField_eq_iff (w : CmdWord) (c : BitVec 4) :
    opField w = c ↔ w.toNat / 65536 = c.toNat := by
  rw [← BitVec.toNat_inj, opField_toNat]

theorem payload_eq_iff (w : CmdWord) (c : Half) : payload w = c ↔ w.toNat % 65536 = c.toNat := by
  rw [← BitVec.toNat_inj, payload_toNat]

theorem payloadHigh_eq_iff (w : CmdWord) (c : Byte) :
    payloadHigh w = c ↔ w.toNat / 256 % 256 = c.toNat := by
  rw [← BitVec.toNat_inj, payloadHigh_toNat]

theorem payloadLow_eq_iff (w : CmdWord) (c : Byte) :
    payloadLow w = c ↔ w.toNat % 256 = c.toNat := by
  rw [← BitVec.toNat_inj, payloadLow_toNat]

theorem encode_begin_toNat : (encode .begin).toNat = 65536 := by decide

theorem encode_writeS8_toNat (s : Byte) : (encode (.writeS8 s)).toNat = 131072 + s.toNat := by
  rw [encode, BitVec.toNat_append, ← Nat.shiftLeft_add_eq_or_of_lt s.isLt]
  simp [Nat.shiftLeft_eq]

theorem encode_writeU16_toNat (s : Half) : (encode (.writeU16 s)).toNat = 196608 + s.toNat := by
  rw [encode, BitVec.toNat_append, ← Nat.shiftLeft_add_eq_or_of_lt s.isLt]
  simp [Nat.shiftLeft_eq]

theorem encode_writeS16_toNat (s : Half) : (encode (.writeS16 s)).toNat = 262144 + s.toNat := by
  rw [encode, BitVec.toNat_append, ← Nat.shiftLeft_add_eq_or_of_lt s.isLt]
  simp [Nat.shiftLeft_eq]

/-! The three masks of the opcode map (R76), as fields. -/

theorem and_mask_op (w : CmdWord) : w &&& 0xF0000#20 = opField w ++ 0x0000#16 := by
  apply BitVec.eq_of_getLsbD_eq
  intro i hi
  simp only [BitVec.getLsbD_and, BitVec.getLsbD_append, opField, BitVec.getLsbD_extractLsb']
  interval_cases i <;> simp

theorem and_mask_op_high (w : CmdWord) :
    w &&& 0xFFF00#20 = opField w ++ payloadHigh w ++ 0x00#8 := by
  apply BitVec.eq_of_getLsbD_eq
  intro i hi
  simp only [BitVec.getLsbD_and, BitVec.getLsbD_append, opField, payloadHigh,
    BitVec.getLsbD_extractLsb']
  interval_cases i <;> simp

theorem and_mask_all (w : CmdWord) : w &&& 0xFFFFF#20 = w := by
  have h : 0xFFFFF#20 = BitVec.allOnes 20 := by decide
  rw [h, BitVec.and_allOnes]

end Sys2Proof
end

