-- ==== Sys2Proof/Laws/State.lean ====
section
/-! SUPPORT. What each setter leaves in each field of the state: one lemma per field per update,
so that no proof unfolds a record update. -/

namespace Sys2Proof.Machine

@[simp] theorem Block.setMode_mode (b : Block) (m : Mode) :
    (b.setMode m).mode = m := rfl

@[simp] theorem Block.setMode_duty (b : Block) (m : Mode) :
    (b.setMode m).duty = b.duty := rfl

@[simp] theorem Block.setMode_seq (b : Block) (m : Mode) :
    (b.setMode m).seq = b.seq := rfl

@[simp] theorem Block.setMode_ovfPending (b : Block) (m : Mode) :
    (b.setMode m).ovfPending = b.ovfPending := rfl

@[simp] theorem Block.setMode_ctl (b : Block) (m : Mode) :
    (b.setMode m).ctl = b.ctl := rfl

@[simp] theorem Block.setMode_wave (b : Block) (m : Mode) :
    (b.setMode m).wave = b.wave := rfl

@[simp] theorem Block.setMode_prescale1 (b : Block) (m : Mode) :
    (b.setMode m).prescale1 = b.prescale1 := rfl

@[simp] theorem Block.setMode_ovfie (b : Block) (m : Mode) :
    (b.setMode m).ovfie = b.ovfie := rfl

@[simp] theorem Block.setMode_pinDrive (b : Block) (m : Mode) :
    (b.setMode m).pinDrive = b.pinDrive := rfl

@[simp] theorem Block.setDuty_mode (b : Block) (v : Byte) :
    (b.setDuty v).mode = b.mode := rfl

@[simp] theorem Block.setDuty_duty (b : Block) (v : Byte) :
    (b.setDuty v).duty = v := rfl

@[simp] theorem Block.setDuty_seq (b : Block) (v : Byte) :
    (b.setDuty v).seq = b.seq := rfl

@[simp] theorem Block.setDuty_ovfPending (b : Block) (v : Byte) :
    (b.setDuty v).ovfPending = b.ovfPending := rfl

@[simp] theorem Block.setDuty_ctl (b : Block) (v : Byte) :
    (b.setDuty v).ctl = b.ctl := rfl

@[simp] theorem Block.setDuty_wave (b : Block) (v : Byte) :
    (b.setDuty v).wave = b.wave := rfl

@[simp] theorem Block.setDuty_prescale1 (b : Block) (v : Byte) :
    (b.setDuty v).prescale1 = b.prescale1 := rfl

@[simp] theorem Block.setDuty_ovfie (b : Block) (v : Byte) :
    (b.setDuty v).ovfie = b.ovfie := rfl

@[simp] theorem Block.setDuty_pinDrive (b : Block) (v : Byte) :
    (b.setDuty v).pinDrive = b.pinDrive := rfl

@[simp] theorem Block.setSeq_mode (b : Block) (q : SeqPos) :
    (b.setSeq q).mode = b.mode := rfl

@[simp] theorem Block.setSeq_duty (b : Block) (q : SeqPos) :
    (b.setSeq q).duty = b.duty := rfl

@[simp] theorem Block.setSeq_seq (b : Block) (q : SeqPos) :
    (b.setSeq q).seq = q := rfl

@[simp] theorem Block.setSeq_ovfPending (b : Block) (q : SeqPos) :
    (b.setSeq q).ovfPending = b.ovfPending := rfl

@[simp] theorem Block.setSeq_ctl (b : Block) (q : SeqPos) :
    (b.setSeq q).ctl = b.ctl := rfl

@[simp] theorem Block.setSeq_wave (b : Block) (q : SeqPos) :
    (b.setSeq q).wave = b.wave := rfl

@[simp] theorem Block.setSeq_prescale1 (b : Block) (q : SeqPos) :
    (b.setSeq q).prescale1 = b.prescale1 := rfl

@[simp] theorem Block.setSeq_ovfie (b : Block) (q : SeqPos) :
    (b.setSeq q).ovfie = b.ovfie := rfl

@[simp] theorem Block.setSeq_pinDrive (b : Block) (q : SeqPos) :
    (b.setSeq q).pinDrive = b.pinDrive := rfl

@[simp] theorem Block.setCtl_mode (b : Block) (c : Memory) :
    (b.setCtl c).mode = b.mode := rfl

@[simp] theorem Block.setCtl_duty (b : Block) (c : Memory) :
    (b.setCtl c).duty = b.duty := rfl

@[simp] theorem Block.setCtl_seq (b : Block) (c : Memory) :
    (b.setCtl c).seq = b.seq := rfl

@[simp] theorem Block.setCtl_ovfPending (b : Block) (c : Memory) :
    (b.setCtl c).ovfPending = b.ovfPending := rfl

@[simp] theorem Block.setCtl_ctl (b : Block) (c : Memory) :
    (b.setCtl c).ctl = c := rfl

@[simp] theorem Block.setCtl_wave (b : Block) (c : Memory) :
    (b.setCtl c).wave = b.wave := rfl

@[simp] theorem Block.setCtl_prescale1 (b : Block) (c : Memory) :
    (b.setCtl c).prescale1 = b.prescale1 := rfl

@[simp] theorem Block.setCtl_ovfie (b : Block) (c : Memory) :
    (b.setCtl c).ovfie = b.ovfie := rfl

@[simp] theorem Block.setCtl_pinDrive (b : Block) (c : Memory) :
    (b.setCtl c).pinDrive = b.pinDrive := rfl

@[simp] theorem Block.setWaveform_mode (b : Block) (m : PwmMode) :
    (b.setWaveform m).mode = b.mode := rfl

@[simp] theorem Block.setWaveform_duty (b : Block) (m : PwmMode) :
    (b.setWaveform m).duty = b.duty := rfl

@[simp] theorem Block.setWaveform_seq (b : Block) (m : PwmMode) :
    (b.setWaveform m).seq = b.seq := rfl

@[simp] theorem Block.setWaveform_ovfPending (b : Block) (m : PwmMode) :
    (b.setWaveform m).ovfPending = b.ovfPending := rfl

@[simp] theorem Block.setWaveform_ctl (b : Block) (m : PwmMode) :
    (b.setWaveform m).ctl = b.ctl := rfl

@[simp] theorem Block.setWaveform_wave (b : Block) (m : PwmMode) :
    (b.setWaveform m).wave = some m := rfl

@[simp] theorem Block.setWaveform_prescale1 (b : Block) (m : PwmMode) :
    (b.setWaveform m).prescale1 = true := rfl

@[simp] theorem Block.setWaveform_ovfie (b : Block) (m : PwmMode) :
    (b.setWaveform m).ovfie = b.ovfie := rfl

@[simp] theorem Block.setWaveform_pinDrive (b : Block) (m : PwmMode) :
    (b.setWaveform m).pinDrive = b.pinDrive := rfl

@[simp] theorem Block.enableOverflow_mode (b : Block) :
    (b.enableOverflow).mode = b.mode := rfl

@[simp] theorem Block.enableOverflow_duty (b : Block) :
    (b.enableOverflow).duty = b.duty := rfl

@[simp] theorem Block.enableOverflow_seq (b : Block) :
    (b.enableOverflow).seq = b.seq := rfl

@[simp] theorem Block.enableOverflow_ovfPending (b : Block) :
    (b.enableOverflow).ovfPending = b.ovfPending := rfl

@[simp] theorem Block.enableOverflow_ctl (b : Block) :
    (b.enableOverflow).ctl = b.ctl := rfl

@[simp] theorem Block.enableOverflow_wave (b : Block) :
    (b.enableOverflow).wave = b.wave := rfl

@[simp] theorem Block.enableOverflow_prescale1 (b : Block) :
    (b.enableOverflow).prescale1 = b.prescale1 := rfl

@[simp] theorem Block.enableOverflow_ovfie (b : Block) :
    (b.enableOverflow).ovfie = true := rfl

@[simp] theorem Block.enableOverflow_pinDrive (b : Block) :
    (b.enableOverflow).pinDrive = b.pinDrive := rfl

@[simp] theorem Block.drivePin_mode (b : Block) :
    (b.drivePin).mode = b.mode := rfl

@[simp] theorem Block.drivePin_duty (b : Block) :
    (b.drivePin).duty = b.duty := rfl

@[simp] theorem Block.drivePin_seq (b : Block) :
    (b.drivePin).seq = b.seq := rfl

@[simp] theorem Block.drivePin_ovfPending (b : Block) :
    (b.drivePin).ovfPending = b.ovfPending := rfl

@[simp] theorem Block.drivePin_ctl (b : Block) :
    (b.drivePin).ctl = b.ctl := rfl

@[simp] theorem Block.drivePin_wave (b : Block) :
    (b.drivePin).wave = b.wave := rfl

@[simp] theorem Block.drivePin_prescale1 (b : Block) :
    (b.drivePin).prescale1 = b.prescale1 := rfl

@[simp] theorem Block.drivePin_ovfie (b : Block) :
    (b.drivePin).ovfie = b.ovfie := rfl

@[simp] theorem Block.drivePin_pinDrive (b : Block) :
    (b.drivePin).pinDrive = true := rfl

@[simp] theorem Block.raiseOverflow_mode (b : Block) :
    (b.raiseOverflow).mode = b.mode := rfl

@[simp] theorem Block.raiseOverflow_duty (b : Block) :
    (b.raiseOverflow).duty = b.duty := rfl

@[simp] theorem Block.raiseOverflow_seq (b : Block) :
    (b.raiseOverflow).seq = b.seq := rfl

@[simp] theorem Block.raiseOverflow_ovfPending (b : Block) :
    (b.raiseOverflow).ovfPending = true := rfl

@[simp] theorem Block.raiseOverflow_ctl (b : Block) :
    (b.raiseOverflow).ctl = b.ctl := rfl

@[simp] theorem Block.raiseOverflow_wave (b : Block) :
    (b.raiseOverflow).wave = b.wave := rfl

@[simp] theorem Block.raiseOverflow_prescale1 (b : Block) :
    (b.raiseOverflow).prescale1 = b.prescale1 := rfl

@[simp] theorem Block.raiseOverflow_ovfie (b : Block) :
    (b.raiseOverflow).ovfie = b.ovfie := rfl

@[simp] theorem Block.raiseOverflow_pinDrive (b : Block) :
    (b.raiseOverflow).pinDrive = b.pinDrive := rfl

@[simp] theorem Block.clearOverflow_mode (b : Block) :
    (b.clearOverflow).mode = b.mode := rfl

@[simp] theorem Block.clearOverflow_duty (b : Block) :
    (b.clearOverflow).duty = b.duty := rfl

@[simp] theorem Block.clearOverflow_seq (b : Block) :
    (b.clearOverflow).seq = b.seq := rfl

@[simp] theorem Block.clearOverflow_ovfPending (b : Block) :
    (b.clearOverflow).ovfPending = false := rfl

@[simp] theorem Block.clearOverflow_ctl (b : Block) :
    (b.clearOverflow).ctl = b.ctl := rfl

@[simp] theorem Block.clearOverflow_wave (b : Block) :
    (b.clearOverflow).wave = b.wave := rfl

@[simp] theorem Block.clearOverflow_prescale1 (b : Block) :
    (b.clearOverflow).prescale1 = b.prescale1 := rfl

@[simp] theorem Block.clearOverflow_ovfie (b : Block) :
    (b.clearOverflow).ovfie = b.ovfie := rfl

@[simp] theorem Block.clearOverflow_pinDrive (b : Block) :
    (b.clearOverflow).pinDrive = b.pinDrive := rfl

@[simp] theorem State.setBlock_cfg (s : State) (b : Block) :
    (s.setBlock b).cfg = s.cfg := rfl

@[simp] theorem State.setBlock_block (s : State) (b : Block) :
    (s.setBlock b).block = b := rfl

@[simp] theorem State.setBlock_refusalMark (s : State) (b : Block) :
    (s.setBlock b).refusalMark = s.refusalMark := rfl

@[simp] theorem State.setBlock_secondWriter (s : State) (b : Block) :
    (s.setBlock b).secondWriter = s.secondWriter := rfl

@[simp] theorem State.setBlock_sched (s : State) (b : Block) :
    (s.setBlock b).sched = s.sched := rfl

@[simp] theorem State.setBlock_draws (s : State) (b : Block) :
    (s.setBlock b).draws = s.draws := rfl

@[simp] theorem State.setBlock_profile (s : State) (b : Block) :
    (s.setBlock b).profile = s.profile := rfl

@[simp] theorem State.setSched_cfg (s : State) (l : List StepLabel) :
    (s.setSched l).cfg = s.cfg := rfl

@[simp] theorem State.setSched_block (s : State) (l : List StepLabel) :
    (s.setSched l).block = s.block := rfl

@[simp] theorem State.setSched_refusalMark (s : State) (l : List StepLabel) :
    (s.setSched l).refusalMark = s.refusalMark := rfl

@[simp] theorem State.setSched_secondWriter (s : State) (l : List StepLabel) :
    (s.setSched l).secondWriter = s.secondWriter := rfl

@[simp] theorem State.setSched_sched (s : State) (l : List StepLabel) :
    (s.setSched l).sched = l := rfl

@[simp] theorem State.setSched_draws (s : State) (l : List StepLabel) :
    (s.setSched l).draws = s.draws := rfl

@[simp] theorem State.setSched_profile (s : State) (l : List StepLabel) :
    (s.setSched l).profile = s.profile := rfl

@[simp] theorem State.setMark_cfg (s : State) :
    (s.setMark).cfg = s.cfg := rfl

@[simp] theorem State.setMark_block (s : State) :
    (s.setMark).block = s.block := rfl

@[simp] theorem State.setMark_refusalMark (s : State) :
    (s.setMark).refusalMark = true := rfl

@[simp] theorem State.setMark_secondWriter (s : State) :
    (s.setMark).secondWriter = s.secondWriter := rfl

@[simp] theorem State.setMark_sched (s : State) :
    (s.setMark).sched = s.sched := rfl

@[simp] theorem State.setMark_draws (s : State) :
    (s.setMark).draws = s.draws := rfl

@[simp] theorem State.setMark_profile (s : State) :
    (s.setMark).profile = s.profile := rfl

@[simp] theorem State.setDraws_cfg (s : State) (k : Nat) :
    (s.setDraws k).cfg = s.cfg := rfl

@[simp] theorem State.setDraws_block (s : State) (k : Nat) :
    (s.setDraws k).block = s.block := rfl

@[simp] theorem State.setDraws_refusalMark (s : State) (k : Nat) :
    (s.setDraws k).refusalMark = s.refusalMark := rfl

@[simp] theorem State.setDraws_secondWriter (s : State) (k : Nat) :
    (s.setDraws k).secondWriter = s.secondWriter := rfl

@[simp] theorem State.setDraws_sched (s : State) (k : Nat) :
    (s.setDraws k).sched = s.sched := rfl

@[simp] theorem State.setDraws_draws (s : State) (k : Nat) :
    (s.setDraws k).draws = k := rfl

@[simp] theorem State.setDraws_profile (s : State) (k : Nat) :
    (s.setDraws k).profile = s.profile := rfl

@[simp] theorem State.setBlock_block_self (s : State) : s.setBlock s.block = s := rfl

@[simp] theorem State.setBlock_setBlock (s : State) (b c : Block) :
    (s.setBlock b).setBlock c = s.setBlock c := rfl

@[simp] theorem Block.afterReset_mode (d : Byte) : (Block.afterReset d).mode = .unconfigured := rfl

@[simp] theorem Block.afterReset_duty (d : Byte) : (Block.afterReset d).duty = d := rfl

@[simp] theorem Block.afterReset_seq (d : Byte) : (Block.afterReset d).seq = .idle := rfl

@[simp] theorem Block.afterReset_ovfPending (d : Byte) : (Block.afterReset d).ovfPending = false := rfl

@[simp] theorem Block.afterReset_ctl (d : Byte) : (Block.afterReset d).ctl = [] := rfl

@[simp] theorem Block.afterReset_wave (d : Byte) : (Block.afterReset d).wave = none := rfl

@[simp] theorem Block.afterReset_prescale1 (d : Byte) : (Block.afterReset d).prescale1 = false := rfl

@[simp] theorem Block.afterReset_ovfie (d : Byte) : (Block.afterReset d).ovfie = false := rfl

@[simp] theorem Block.afterReset_pinDrive (d : Byte) : (Block.afterReset d).pinDrive = false := rfl

@[simp] theorem powerReset_cfg (s : State) : (powerReset s).cfg = s.cfg := rfl

@[simp] theorem powerReset_block (s : State) : (powerReset s).block = Block.afterReset (Config.dutyReset s.draws) := rfl

@[simp] theorem powerReset_refusalMark (s : State) : (powerReset s).refusalMark = s.refusalMark := rfl

@[simp] theorem powerReset_secondWriter (s : State) : (powerReset s).secondWriter = s.secondWriter := rfl

@[simp] theorem powerReset_sched (s : State) : (powerReset s).sched = s.sched := rfl

@[simp] theorem powerReset_draws (s : State) : (powerReset s).draws = s.draws + 1 := rfl

@[simp] theorem powerReset_profile (s : State) : (powerReset s).profile = s.profile := rfl

@[simp] theorem State.resetOf_cfg (c : Config) : (State.resetOf c).cfg = c := rfl

@[simp] theorem State.resetOf_block (c : Config) : (State.resetOf c).block = Block.afterReset (Config.dutyReset 0) := rfl

@[simp] theorem State.resetOf_refusalMark (c : Config) : (State.resetOf c).refusalMark = false := rfl

@[simp] theorem State.resetOf_secondWriter (c : Config) : (State.resetOf c).secondWriter = false := rfl

@[simp] theorem State.resetOf_sched (c : Config) : (State.resetOf c).sched = [] := rfl

@[simp] theorem State.resetOf_draws (c : Config) : (State.resetOf c).draws = 1 := rfl

@[simp] theorem State.resetOf_profile (c : Config) : (State.resetOf c).profile = c.active := rfl

@[simp] theorem takeInterrupt_cfg (s : State) : (takeInterrupt s).cfg = s.cfg := rfl

@[simp] theorem takeInterrupt_block (s : State) : (takeInterrupt s).block = s.block.clearOverflow := rfl

@[simp] theorem takeInterrupt_refusalMark (s : State) : (takeInterrupt s).refusalMark = s.refusalMark := rfl

@[simp] theorem takeInterrupt_secondWriter (s : State) : (takeInterrupt s).secondWriter = s.secondWriter := rfl

@[simp] theorem takeInterrupt_sched (s : State) : (takeInterrupt s).sched = s.sched := rfl

@[simp] theorem takeInterrupt_draws (s : State) : (takeInterrupt s).draws = s.draws := rfl

@[simp] theorem takeInterrupt_profile (s : State) : (takeInterrupt s).profile = s.profile := rfl

end Sys2Proof.Machine
end

