-- ==== Sys2Proof/Laws/Memory.lean ====
section
/-! SUPPORT. The register space: read after write, and that every memory operation keeps the
canonical form. -/

namespace Sys2Proof.Machine

@[simp] theorem Memory.read_nil (x : Nat) : Memory.read [] x = none := rfl

theorem Memory.read_cons (a : Nat) (v : Byte) (m : Memory) (x : Nat) :
    Memory.read ((a, v) :: m) x = if x = a then some v else Memory.read m x := rfl

theorem Memory.read_write_same (m : Memory) (x : Nat) (v : Byte) :
    (m.write x v).read x = some v := by
  induction m with
  | nil => simp [Memory.write, Memory.read_cons]
  | cons c m ih =>
    obtain ⟨a, w⟩ := c
    unfold Memory.write
    split
    · simp [Memory.read_cons]
    · split
      · simp [Memory.read_cons]
      · simp_all [Memory.read_cons]

theorem Memory.read_write_other (m : Memory) {x y : Nat} (v : Byte) (h : y ≠ x) :
    (m.write x v).read y = m.read y := by
  induction m with
  | nil => simp [Memory.write, Memory.read_cons, h]
  | cons c m ih =>
    obtain ⟨a, w⟩ := c
    unfold Memory.write
    split
    · simp [Memory.read_cons, h]
    · split
      · rename_i hxa
        subst hxa
        simp [Memory.read_cons, h]
      · simp [Memory.read_cons, ih]

theorem Memory.read_write (m : Memory) (x y : Nat) (v : Byte) :
    (m.write x v).read y = if y = x then some v else m.read y := by
  by_cases h : y = x
  · subst h; simp [Memory.read_write_same]
  · simp [h, Memory.read_write_other m v h]

/-- Below a rising list nothing is listed. -/
theorem Memory.read_below {m : Memory} {lo x : Nat} (h : m.risesFrom lo = true) (hx : x ≤ lo) :
    m.read x = none := by
  induction m generalizing lo with
  | nil => rfl
  | cons c m ih =>
    obtain ⟨a, w⟩ := c
    simp only [Memory.risesFrom, Bool.and_eq_true, decide_eq_true_eq] at h
    have hne : x ≠ a := by omega
    simp [Memory.read_cons, hne, ih h.2 (by omega)]

theorem Memory.risesFrom_write {m : Memory} {lo x : Nat} (v : Byte) (h : m.risesFrom lo = true)
    (hx : lo < x) : (m.write x v).risesFrom lo = true := by
  induction m generalizing lo with
  | nil => simp [Memory.write, Memory.risesFrom, hx]
  | cons c m ih =>
    obtain ⟨a, w⟩ := c
    simp only [Memory.risesFrom, Bool.and_eq_true, decide_eq_true_eq] at h
    unfold Memory.write
    split
    · simp [Memory.risesFrom, h.2, *]
    · split
      · simp [Memory.risesFrom, *]
      · simp [Memory.risesFrom, h.1, ih h.2 (by omega)]

/-- A write keeps the canonical form. -/
theorem Memory.wf_write {m : Memory} (x : Nat) (v : Byte) (h : m.wf = true) :
    (m.write x v).wf = true := by
  cases m with
  | nil => rfl
  | cons c m =>
    obtain ⟨a, w⟩ := c
    unfold Memory.write
    split
    · simp_all [Memory.wf, Memory.risesFrom]
    · split
      · rename_i hxa
        subst hxa
        exact h
      · exact Memory.risesFrom_write v h (by omega)

/-- Overwriting a register with the byte it holds changes nothing (R55). -/
theorem Memory.write_held_rises {m : Memory} {lo x : Nat} {v : Byte}
    (h : m.risesFrom lo = true) (hr : m.read x = some v) : m.write x v = m := by
  induction m generalizing lo with
  | nil => cases hr
  | cons c m ih =>
    obtain ⟨a, w⟩ := c
    simp only [Memory.risesFrom, Bool.and_eq_true, decide_eq_true_eq] at h
    rw [Memory.read_cons] at hr
    unfold Memory.write
    split at hr
    · cases hr
      simp_all
    · split
      · rw [Memory.read_below h.2 (by omega)] at hr
        cases hr
      · simp [*, ih h.2 hr]

theorem Memory.write_held {m : Memory} {x : Nat} {v : Byte} (h : m.wf = true)
    (hr : m.read x = some v) : m.write x v = m := by
  cases m with
  | nil => cases hr
  | cons c m =>
    obtain ⟨a, w⟩ := c
    rw [Memory.read_cons] at hr
    unfold Memory.write
    split at hr
    · cases hr
      simp_all
    · split
      · rw [Memory.read_below h (by omega)] at hr
        cases hr
      · simp [*, Memory.write_held_rises h hr]

/-- The control registers of the reset state are in canonical form. -/
theorem reset_ctl_wf : State.reset.block.ctl.wf = true := rfl

/-- `RegWrite` keeps the canonical form (R50). -/
theorem regWrite_ctl_wf {a : Nat} {v : Byte} {s t : State} (h : regWrite a v s = .next t)
    (hs : s.block.ctl.wf = true) : t.block.ctl.wf = true := by
  unfold regWrite at h
  split at h
  · cases h; exact hs
  · split at h
    · cases h; exact Memory.wf_write a v hs
    · cases h

end Sys2Proof.Machine
end

