-- ==== Sys2Proof/Laws/Ops.lean ====
section
/-! SUPPORT. Everything each shared operation can do, said once: the register write, the duty
write, BEGIN and the micro-steps, the other labels, and the transition system over them. -/

namespace Sys2Proof.Machine

@[simp] theorem andThen_next (s : State) (f : State → Host.Outcome State Fault Refusal) :
    andThen (.next s) f = f s := rfl

@[simp] theorem andThen_refused (r : Refusal) (f : State → Host.Outcome State Fault Refusal) :
    andThen (.refused r) f = .refused r := rfl

theorem andThen_eq_next {o : Host.Outcome State Fault Refusal}
    {f : State → Host.Outcome State Fault Refusal} {t : State} (h : andThen o f = .next t) :
    ∃ s, o = .next s ∧ f s = .next t := by
  cases o with
  | next s => exact ⟨s, rfl, h⟩
  | fault r => cases h
  | refused r => cases h

theorem regWrite_duty (v : Byte) (s : State) :
    regWrite s.profile.dutyAddr v s = .next (s.setBlock (s.block.setDuty v)) := by
  simp [regWrite]

theorem regWrite_ctl {a : Addr} (v : Byte) {s : State} (hd : a ≠ s.profile.dutyAddr)
    (ha : a ∈ s.profile.ctlAddrs) :
    regWrite a v s = .next (s.setBlock (s.block.setCtl (s.block.ctl.write a v))) := by
  simp [regWrite, hd, ha]

/-- What a `RegWrite` that answers a next state has done (R50). -/
theorem regWrite_cases {a : Addr} {v : Byte} {s t : State} (h : regWrite a v s = .next t) :
    (a = s.profile.dutyAddr ∧ t = s.setBlock (s.block.setDuty v)) ∨
    (a ≠ s.profile.dutyAddr ∧ a ∈ s.profile.ctlAddrs ∧
      t = s.setBlock (s.block.setCtl (s.block.ctl.write a v))) := by
  unfold regWrite at h
  split at h
  · cases h; exact .inl ⟨‹_›, rfl⟩
  · split at h
    · cases h; exact .inr ⟨‹_›, ‹_›, rfl⟩
    · cases h

theorem writeDuty_single {s : State} (v : Byte) (h : s.secondWriter = false) :
    writeDuty v s = .next (s.setBlock (s.block.setDuty v)) := by
  simp [writeDuty, h, regWrite_duty]

theorem writeDuty_second {s : State} (v : Byte) (h : s.secondWriter = true) :
    writeDuty v s = .refused .secondWriter := by
  simp [writeDuty, h]

/-- What a WRITE that answers a next state has done (R53, R59). -/
theorem writeDuty_cases {v : Byte} {s t : State} (h : writeDuty v s = .next t) :
    s.secondWriter = false ∧ t = s.setBlock (s.block.setDuty v) := by
  cases hw : s.secondWriter with
  | false => rw [writeDuty_single v hw] at h; cases h; exact ⟨rfl, rfl⟩
  | true => rw [writeDuty_second v hw] at h; cases h

theorem execBegin_cases {s t : State} (h : execBegin s = .next t) :
    s.block.seq = .idle ∧ t = s.setBlock (s.block.setSeq .pin) := by
  unfold execBegin at h
  split at h <;> cases h
  exact ⟨‹_›, rfl⟩

/-- What an operation that answers a next state has done: BEGIN started the sequencer, or a WRITE
replaced the duty register. -/
theorem exec_cases {i : Instr} {s t : State} (h : exec i s = .next t) :
    (i = .begin ∧ s.block.seq = .idle ∧ t = s.setBlock (s.block.setSeq .pin)) ∨
    (i.isWrite = true ∧ s.secondWriter = false ∧ ∃ v, t = s.setBlock (s.block.setDuty v)) := by
  cases i with
  | begin => exact .inl ⟨rfl, execBegin_cases h⟩
  | writeS8 b => exact .inr ⟨rfl, (writeDuty_cases h).1, _, (writeDuty_cases h).2⟩
  | writeU16 b => exact .inr ⟨rfl, (writeDuty_cases h).1, _, (writeDuty_cases h).2⟩
  | writeS16 b => exact .inr ⟨rfl, (writeDuty_cases h).1, _, (writeDuty_cases h).2⟩

theorem ctlPair_mem {p : Profile} {k : Nat} {c : Host.Cell} (h : ctlPair p k = some c) :
    c ∈ p.ctlSeq ∧ 1 ≤ k ∧ p.ctlSeq[k - 1]? = some c := by
  cases k with
  | zero => cases h
  | succ j => exact ⟨List.mem_of_getElem? h, by omega, h⟩

theorem Profile.n_eq (p : Profile) : p.n = p.ctlSeq.length := by
  simp [Profile.n, Profile.nW, Profile.nI, Profile.ctlSeq]

/-- What a micro-step Reg(k) that answers a next state has done (R93). -/
theorem microReg_cases {k : Nat} {s t : State} (h : microReg k s = .next t) :
    ∃ a v u, ctlPair s.profile k = some (a, v) ∧ regWrite a v s = .next u ∧
      t = u.setBlock ((finishIrq s.profile k (finishWave s.profile k u.block)).setSeq
        (nextReg k s.profile.n)) := by
  unfold microReg at h
  split at h
  · cases h
  · rename_i a v hp
    obtain ⟨u, hu, ht⟩ := andThen_eq_next h
    cases ht
    exact ⟨a, v, u, hp, hu, rfl⟩

theorem seqstep_cases {s t : State} (h : seqstep s = some (.next t)) :
    (s.block.seq = .pin ∧ t = microPin s) ∨
    (∃ k, s.block.seq = .reg k ∧ microReg k s = .next t) ∨
    (s.block.seq = .ret ∧ t = microRet s) := by
  unfold seqstep at h
  split at h
  · cases h
  · cases h; exact .inl ⟨‹_›, rfl⟩
  · rename_i k hk
    exact .inr (.inl ⟨k, hk, Option.some.inj h⟩)
  · cases h; exact .inr (.inr ⟨‹_›, rfl⟩)

theorem cmdStep_cases {w : CmdWord} {s t : State} (h : cmdStep w s = .next t) :
    ∃ i, decode w = .ok i ∧ exec i s = .next t := by
  unfold cmdStep at h
  split at h
  · exact ⟨_, ‹_›, h⟩
  · cases h

theorem ovfStep_cases {s t : State} (h : ovfStep s = some t) :
    s.block.timerRuns = true ∧ t = s.setBlock s.block.raiseOverflow := by
  unfold ovfStep at h
  split at h <;> cases h
  exact ⟨‹_›, rfl⟩

theorem irqackStep_cases {s t : State} (h : irqackStep s = some t) :
    s.block.irq = true ∧ t = takeInterrupt s := by
  unfold irqackStep at h
  split at h <;> cases h
  exact ⟨‹_›, rfl⟩

theorem admission_none {l : StepLabel} {s : State} (h : admission l s = none) :
    s.cfg.wf = true ∧ s.secondWriter = false ∧ (s.refusalMark = false ∨ l = .reset) := by
  unfold admission at h
  split at h
  · cases h
  · split at h
    · cases h
    · split at h
      · cases h
      · rename_i h1 h2 h3
        refine ⟨by simpa using h1, by simpa using h2, ?_⟩
        by_cases hl : l = .reset
        · exact .inr hl
        · exact .inl (by simpa [hl] using h3)

theorem admission_eq_none {l : StepLabel} {s : State} (hc : s.cfg.wf = true)
    (hw : s.secondWriter = false) (hm : s.refusalMark = false) : admission l s = none := by
  simp [admission, hc, hw, hm]

theorem transition_admitted {s : State} (l : StepLabel) (hc : s.cfg.wf = true)
    (hw : s.secondWriter = false) (hm : s.refusalMark = false) :
    transition l s = labelStep l s := by
  simp [transition, admission_eq_none hc hw hm]

/-- Everything a step of the transition system can do when it answers a next state. -/
theorem transition_cases {l : StepLabel} {s t : State} (h : transition l s = some (.next t)) :
    s.cfg.wf = true ∧ s.secondWriter = false ∧ (s.refusalMark = false ∨ l = .reset) ∧
    ((∃ w i, l = .cmd w ∧ decode w = .ok i ∧ exec i s = .next t) ∨
     (l = .seqstep ∧ seqstep s = some (.next t)) ∨
     (l = .ovf ∧ s.block.timerRuns = true ∧ t = s.setBlock s.block.raiseOverflow) ∨
     (l = .irqack ∧ s.block.irq = true ∧ t = takeInterrupt s) ∨
     (l = .reset ∧ t = powerReset s)) := by
  unfold transition at h
  split at h
  · cases h
  · rename_i ha
    obtain ⟨hc, hw, hm⟩ := admission_none ha
    refine ⟨hc, hw, hm, ?_⟩
    cases l with
    | cmd w =>
      obtain ⟨i, hd, he⟩ := cmdStep_cases (Option.some.inj h)
      exact .inl ⟨w, i, rfl, hd, he⟩
    | seqstep => exact .inr (.inl ⟨rfl, h⟩)
    | ovf =>
      cases ho : ovfStep s with
      | none => simp [labelStep, ho] at h
      | some u =>
        simp only [labelStep, ho, Option.map_some, Option.some.injEq, Host.Outcome.next.injEq] at h
        subst h
        exact .inr (.inr (.inl ⟨rfl, ovfStep_cases ho⟩))
    | irqack =>
      cases ho : irqackStep s with
      | none => simp [labelStep, ho] at h
      | some u =>
        simp only [labelStep, ho, Option.map_some, Option.some.injEq, Host.Outcome.next.injEq] at h
        subst h
        exact .inr (.inr (.inr (.inl ⟨rfl, irqackStep_cases ho⟩)))
    | reset =>
      simp only [labelStep, Option.some.injEq, Host.Outcome.next.injEq] at h
      exact .inr (.inr (.inr (.inr ⟨rfl, h.symm⟩)))

/-- What no `RegWrite` touches: everything outside the duty register and the control registers. -/
theorem regWrite_frame {a : Addr} {v : Byte} {s t : State} (h : regWrite a v s = .next t) :
    ∃ d c, t = s.setBlock ((s.block.setDuty d).setCtl c) := by
  rcases regWrite_cases h with ⟨_, rfl⟩ | ⟨_, _, rfl⟩
  · exact ⟨v, s.block.ctl, rfl⟩
  · exact ⟨s.block.duty, _, rfl⟩

/-- Every label but `reset` leaves a state that differs in the block alone. -/
theorem transition_block_only {l : StepLabel} {s t : State}
    (h : transition l s = some (.next t)) (hl : l ≠ .reset) : t = s.setBlock t.block := by
  obtain ⟨_, _, _, ⟨w, i, rfl, _, he⟩ | ⟨rfl, hq⟩ | ⟨rfl, _, rfl⟩ | ⟨rfl, _, rfl⟩ | ⟨rfl, rfl⟩⟩ :=
    transition_cases h
  · obtain ⟨_, _, rfl⟩ | ⟨_, _, v, rfl⟩ := exec_cases he <;> rfl
  · obtain ⟨_, rfl⟩ | ⟨k, _, hk⟩ | ⟨_, rfl⟩ := seqstep_cases hq
    · rfl
    · obtain ⟨a, v, u, _, hu, rfl⟩ := microReg_cases hk
      obtain ⟨d, c, rfl⟩ := regWrite_frame hu
      rfl
    · rfl
  · rfl
  · rfl
  · exact absurd rfl hl

/-- No transition changes the configuration, the host's declaration, the offers or the refusal
mark. -/
theorem transition_frame {l : StepLabel} {s t : State} (h : transition l s = some (.next t)) :
    t.cfg = s.cfg ∧ t.secondWriter = s.secondWriter ∧ t.refusalMark = s.refusalMark ∧
      t.sched = s.sched := by
  by_cases hl : l = .reset
  · subst hl
    obtain ⟨_, _, _, hc⟩ := transition_cases h
    obtain ⟨w, i, hw, _⟩ | ⟨hq, _⟩ | ⟨ho, _⟩ | ⟨hi, _⟩ | ⟨_, rfl⟩ := hc
    · cases hw
    · cases hq
    · cases ho
    · cases hi
    · exact ⟨rfl, rfl, rfl, rfl⟩
  · rw [transition_block_only h hl]
    exact ⟨rfl, rfl, rfl, rfl⟩

/-- A step takes the offered label's transition, or passes over a label that is not enabled. -/
theorem perform_cases {l : StepLabel} {s t : State} (h : perform l s = .next t) :
    (transition l s = none ∧ t = s) ∨ transition l s = some (.next t) := by
  unfold perform at h
  split at h
  · cases h; exact .inl ⟨‹_›, rfl⟩
  · subst h; exact .inr ‹_›

@[simp] theorem takeOffer_cfg (s : State) : (takeOffer s).cfg = s.cfg := by
  unfold takeOffer; split <;> rfl

@[simp] theorem takeOffer_block (s : State) : (takeOffer s).block = s.block := by
  unfold takeOffer; split <;> rfl

@[simp] theorem takeOffer_profile (s : State) : (takeOffer s).profile = s.profile := by
  unfold takeOffer; split <;> rfl

@[simp] theorem takeOffer_refusalMark (s : State) :
    (takeOffer s).refusalMark = s.refusalMark := by
  unfold takeOffer; split <;> rfl

@[simp] theorem takeOffer_secondWriter (s : State) :
    (takeOffer s).secondWriter = s.secondWriter := by
  unfold takeOffer; split <;> rfl

end Sys2Proof.Machine
end

