-- ==== Sys2Proof/Laws/PerInstr.lean ====
section
/-! SUPPORT. For every operation: the word its encoding gives selects the operation's own row of
the opcode map (spec 30_encoding.md R76). -/

namespace Sys2Proof.Laws.RowOfWord

/-- The encoded word of `i` selects the row of `i`. -/
def Statement (i : Instr) : Prop := encode i &&& i.row.mask = i.row.matchBits

theorem begin : Statement .begin := by unfold Statement; decide

theorem writeS8 (s : Byte) : Statement (.writeS8 s) := by
  have hs := s.isLt
  have ho : opField (encode (.writeS8 s)) = 0x2#4 := by
    rw [opField_eq_iff, encode_writeS8_toNat]; simp; omega
  have hh : payloadHigh (encode (.writeS8 s)) = 0x00#8 := by
    rw [payloadHigh_eq_iff, encode_writeS8_toNat]; simp; omega
  show encode (.writeS8 s) &&& 0xFFF00#20 = 0x20000#20
  rw [and_mask_op_high, ho, hh]
  decide

theorem writeU16 (s : Half) : Statement (.writeU16 s) := by
  have hs := s.isLt
  have ho : opField (encode (.writeU16 s)) = 0x3#4 := by
    rw [opField_eq_iff, encode_writeU16_toNat]; simp; omega
  show encode (.writeU16 s) &&& 0xF0000#20 = 0x30000#20
  rw [and_mask_op, ho]
  decide

theorem writeS16 (s : Half) : Statement (.writeS16 s) := by
  have hs := s.isLt
  have ho : opField (encode (.writeS16 s)) = 0x4#4 := by
    rw [opField_eq_iff, encode_writeS16_toNat]; simp; omega
  show encode (.writeS16 s) &&& 0xF0000#20 = 0x40000#20
  rw [and_mask_op, ho]
  decide

end Sys2Proof.Laws.RowOfWord
end

