-- ==== Sys2Proof/Tests/Slice0.lean ====
section
/-! SUPPORT. The model's own tests. Expected results come from spec/: 95_test_vectors.md (decode
2.1, the WRITE tables 2.2 to 2.5, ovf and irqack 2.7, micro-steps 2.8), 30_encoding.md section 7,
10_state.md R32 and R36. The witnesses at the end meet the hypotheses of the obligations. -/

open Sys2Proof Sys2Proof.Machine

namespace Sys2Proof.Tests

/-! ### Small states (the profile is the one `State.reset` carries: nW = 2, nI = 1) -/

/-- The reset state with the sequencer at `q`. -/
def atSeq (q : SeqPos) : State := State.reset.setBlock (State.reset.block.setSeq q)

/-- In the middle of the first BEGIN, before Reg(3): the carrier runs, the interrupt is off. -/
def midBegin : State :=
  State.reset.setBlock
    { mode := .unconfigured, duty := 0x80#8, seq := .reg 3, ovfPending := false
      ctl := [(0xB0, 0x21#8), (0xB1, 0x01#8)], wave := some .phaseCorrect, prescale1 := true
      ovfie := false, pinDrive := true }

/-- Running, with the interrupt pending or not. -/
def running (pending : Bool) : State :=
  State.reset.setBlock
    { mode := .running, duty := 0x80#8, seq := .idle, ovfPending := pending
      ctl := [(0x70, 0x01#8), (0xB0, 0x21#8), (0xB1, 0x01#8)], wave := some .phaseCorrect
      prescale1 := true, ovfie := true, pinDrive := true }

def dutyAfter (o : Host.Outcome State Fault Refusal) : Option Byte :=
  match o with
  | .next t => some t.block.duty
  | .fault r => nomatch r
  | .refused _ => none

def seqAfter (o : Host.Outcome State Fault Refusal) : Option SeqPos :=
  match o with
  | .next t => some t.block.seq
  | .fault r => nomatch r
  | .refused _ => none

def refusalOf (o : Host.Outcome State Fault Refusal) : Option Refusal :=
  match o with
  | .next _ => none
  | .fault r => nomatch r
  | .refused r => some r

/-! ### Well-formedness: each check refuses a term -/

def okProfile : Profile := Config.candidate.profileDefault

theorem test_wf_accepts_candidate : Config.candidate.wf = true := by decide
theorem test_wf_empty_wave_group : ({ okProfile with waveSeq := [] } : Profile).wf = false := by
  decide
theorem test_wf_empty_irq_group : ({ okProfile with irqSeq := [] } : Profile).wf = false := by
  decide
theorem test_wf_repeated_address :
    ({ okProfile with irqSeq := [(0xB0, 1#8)] } : Profile).wf = false := by decide
theorem test_wf_duty_among_controls : ({ okProfile with dutyAddr := 0xB1 } : Profile).wf = false := by
  decide
theorem test_wf_overlapping_targets :
    ({ Config.candidate with targetsB := ["__AVR_ATmega8__"] } : Config).wf = false := by decide

/-! ### Decoding: words written out from the patterns of R76, 95_test_vectors.md 2.1 -/

theorem test_decode_begin : decode 0b00010000000000000000#20 = .ok .begin := by decide
theorem test_decode_writeS8 : decode 0b00100000000010000000#20 = .ok (.writeS8 0x80#8) := by decide
theorem test_decode_writeU16 : decode 0b00110000000100101100#20 = .ok (.writeU16 300#16) := by
  decide
theorem test_decode_writeS16 : decode 0b01001111111100111000#20 = .ok (.writeS16 0xFF38#16) := by
  decide
theorem test_decode_zero_word : decode 0x00000#20 = .error .unusedOp := by decide
theorem test_decode_begin_payload : decode 0x1FFFF#20 = .error .beginWithPayload := by decide
theorem test_decode_sign_extended_byte : decode 0x2FF80#20 = .error .writeS8HighByte := by decide
theorem test_decode_op15 : decode 0xFFFFF#20 = .error .unusedOp := by decide
theorem test_encode_begin : encode .begin = 0x10000#20 := by decide
theorem test_encode_writeS8 : encode (.writeS8 0x7F#8) = 0x2007F#20 := by decide
theorem test_table_word : decodeTableWord 24 0x400C8 = some (.writeS16 200#16) := by decide
theorem test_table_word_too_wide : decodeTableWord 24 0x110000 = none := by decide
theorem test_script_line : ScriptLine.label (.cmd (.write (.signed8 0x80#8))) = .cmd 0x20080#20 := by
  decide

/-! ### The operations -/

theorem test_begin_from_reset :
    seqAfter (step (State.reset.withFetchWord 24 0x10000)) = some .pin := by decide
theorem test_begin_nested :
    refusalOf (exec .begin (atSeq (.reg 2))) = some .beginWhileBeginInProgress := by decide
theorem test_writeS8_lowest : dutyAfter (exec (.writeS8 0x80#8) (running false)) = some 0x00#8 := by
  decide
theorem test_writeS8_first_after_reset :
    dutyAfter (step (State.reset.withFetchWord 24 0x2007F)) = some 0xFF#8 := by decide
theorem test_writeU16_clips : dutyAfter (exec (.writeU16 512#16) (running false)) = some 0xFF#8 := by
  decide
theorem test_writeU16_in_range :
    dutyAfter (exec (.writeU16 200#16) (running false)) = some 200#8 := by decide
theorem test_writeS16_below :
    dutyAfter (exec (.writeS16 0xFF7F#16) (running false)) = some 0x00#8 := by decide
theorem test_writeS16_minus_one :
    dutyAfter (exec (.writeS16 0xFFFF#16) (running false)) = some 0x7F#8 := by decide

/-! ### The other labels -/

theorem test_step_refuses_reserved :
    refusalOf (step (State.reset.withFetchWord 24 0x50000)) = some (.reservedWord .unusedOp) := by
  decide
theorem test_seqstep_reg3 : (seqstep midBegin).map seqAfter = some (some .ret) := by decide
theorem test_seqstep_idle : seqstep State.reset = none := rfl
theorem test_ovf_before_wave : ovfStep State.reset = none := rfl
theorem test_ovf_sets_pending :
    (ovfStep midBegin).map (fun t => (t.block.ovfPending, t.block.irq)) = some (true, false) := by
  decide
theorem test_irqack_clears : (irqackStep (running true)).map (·.block.irq) = some false := by decide
theorem test_reset_drops_pending :
    (powerReset (running true)).block.pwmOut = .undriven ∧
      (powerReset (running true)).block.irq = false := by decide
theorem test_resolve_pins :
    (Config.candidate.resolve "__AVR_ATmega8__").outputPin = 11 ∧
      (Config.candidate.resolve "__AVR_ATmega1280__").outputPin = 3 ∧
      (Config.candidate.resolve "unheard of").outputPin = 3 := by decide
theorem test_onTime_two_writes :
    onTime [.irqack, .cmd 0x20000#20, .cmd 0x20000#20, .ovf] = false := by decide
theorem test_trace_entry :
    traceOf 1 (State.reset.withFetchWord 24 0x2007F) = [⟨.cmd 0x2007F#20, some 0xFF#8⟩] := by decide

/-! ### Witnesses: states and operands that meet the hypotheses of the obligations -/

theorem admitted_reset : State.reset.Admitted := ⟨by decide, rfl, rfl⟩
theorem admitted_atSeq (q : SeqPos) : (atSeq q).Admitted := admitted_reset
theorem admitted_running (p : Bool) : (running p).Admitted := admitted_reset
theorem admitted_midBegin : midBegin.Admitted := admitted_reset

theorem running_reads (p : Bool) (a : Addr) (v : Byte)
    (h : (running p).block.ctl.read a = some v) : (a, v) ∈ (running p).profile.ctlSeq := by
  change Memory.read [(0x70, 0x01#8), (0xB0, 0x21#8), (0xB1, 0x01#8)] a = some v at h
  show (a, v) ∈ [(0xB0, 0x21#8), (0xB1, 0x01#8), (0x70, 0x01#8)]
  simp only [Memory.read_cons, Memory.read_nil] at h
  split at h
  · cases h; simp_all
  · split at h
    · cases h; simp_all
    · split at h
      · cases h; simp_all
      · cases h

theorem running_written (p : Bool) (k : Nat) : (running p).Written k := by
  intro c hc
  have h : ∀ c ∈ [(0xB0, 0x21#8), (0xB1, 0x01#8), (0x70, 0x01#8)],
      Memory.read [(0x70, 0x01#8), (0xB0, 0x21#8), (0xB1, 0x01#8)] c.1 = some c.2 := by decide
  exact h c (List.mem_of_mem_take hc)

/-- `running` meets the invariant (with or without a pending interrupt). -/
theorem inv_running (p : Bool) : (running p).Inv where
  cfgWf := test_wf_accepts_candidate
  ctlWf := rfl
  ctlOnly := running_reads p
  wavePrescale := ⟨fun h => (nomatch h), fun h => (nomatch h)⟩
  waveMode := fun m h => by cases h; exact ⟨rfl, rfl, running_written p _⟩
  ovfieDone := fun _ => ⟨rfl, rfl, rfl, running_written p _⟩
  runningDone := fun _ => ⟨rfl, rfl, rfl, rfl, fun c hc => running_written p 3 c hc⟩
  pendingWave := fun _ h => nomatch h
  irqEnabled := fun _ => rfl
  seqInv := trivial

/-- `running`, in the middle of a second BEGIN. -/
def runningAgain : State := (running false).setBlock ((running false).block.setSeq (.reg 2))

theorem inv_runningAgain : runningAgain.Inv :=
  let h := inv_running false
  ⟨h.1, h.2, h.3, h.4, h.5, h.6, h.7, h.8, h.9, by
    refine ⟨by decide, by decide, rfl, running_written false 1, fun _ => rfl⟩⟩

theorem witness_DecodeOfEncode : (Instr.writeS16 0xFF38#16).wf = true := rfl
theorem witness_EncodeOfDecode : decode 0x4FF38#20 = .ok (.writeS16 0xFF38#16) := by decide
theorem witness_WordsSelectTheRowOfTheirOperation :
    decode 0x200FF#20 = .ok (.writeS8 0xFF#8) ∧ Instr.row (.writeS8 0) ∈ opcodeTable ∧
      0x200FF#20 &&& (Instr.row (.writeS8 0)).mask = (Instr.row (.writeS8 0)).matchBits := by decide
theorem witness_OperandsAreAssembledFromThePayload :
    decode 0x20080#20 = .ok (.writeS8 0x80#8) ∧ decode 0x2007F#20 = .ok (.writeS8 0x7F#8) ∧
      decode 0x3FFFF#20 = .ok (.writeU16 0xFFFF#16) ∧
      decode 0x48000#20 = .ok (.writeS16 0x8000#16) ∧
      decode 0x47FFF#20 = .ok (.writeS16 0x7FFF#16) ∧ decode 0x10000#20 = .ok .begin := by decide
theorem witness_ReservedWords :
    decode 0x0FFFF#20 = .error .unusedOp ∧ decode 0x50000#20 = .error .unusedOp ∧
      decode 0xF0000#20 = .error .unusedOp ∧ decode 0x10001#20 = .error .beginWithPayload ∧
      decode 0x20100#20 = .error .writeS8HighByte := by decide
theorem witness_ConversionsAreMonotone :
    ((-128 : Int) ≤ -128 ∧ (-128 : Int) < 127 ∧ (127 : Int) ≤ 127) ∧
      ((-32768 : Int) ≤ -128 ∧ (127 : Int) ≤ 32767 ∧ (255 : Int) ≤ 65535) := by decide
theorem witness_ConversionsAreAsTheRulesGiveThem :
    ((-128 : Int) ≤ -128 ∧ (127 : Int) ≤ 127) ∧ ((0 : Int) ≤ 255 ∧ (255 : Int) < 256) ∧
      ((127 : Int) < 128 ∧ (-129 : Int) < -128 ∧ (-32768 : Int) ≤ -129) := by decide
theorem witness_ClampingLeavesNoTrace :
    dutyOf (.signed16 128#16) = dutyOf (.unsigned16 300#16) := by decide
theorem witness_secondWriter_absent : State.reset.secondWriter = false := rfl
theorem witness_BeginStartsTheSequencer :
    State.reset.block.seq = .idle ∧ (atSeq .pin).block.seq ≠ .idle := by decide
theorem witness_WritesHaveOneEffectInEveryState :
    (Instr.writeU16 300#16).isWrite = true ∧ (atSeq .ret).secondWriter = false := by decide
theorem witness_WriteFrame :
    (Instr.writeS8 0x80#8).isWrite = true ∧ ∃ t, exec (.writeS8 0x80#8) midBegin = .next t :=
  ⟨rfl, _, rfl⟩
theorem witness_BeginFrame : ∃ t, exec .begin (running true) = .next t := ⟨_, rfl⟩
theorem witness_SecondWriterIsRefused :
    ({ State.reset with secondWriter := true } : State).secondWriter = true ∧
      ({ State.reset with secondWriter := true } : State).cfg.wf = true := by decide
theorem witness_ReservedWordIsRefused :
    (State.reset.setSched [.cmd 0x00000#20]).Admitted ∧
      (State.reset.setSched [.cmd 0x00000#20]).sched = .cmd 0x00000#20 :: [] ∧
      decode 0x00000#20 = .error .unusedOp := ⟨admitted_reset, rfl, by decide⟩
theorem witness_RegWriteReplacesOneRegister :
    0xB4 = State.reset.profile.dutyAddr ∧ 0x70 ≠ State.reset.profile.dutyAddr ∧
      0x70 ∈ State.reset.profile.ctlSeq.map Prod.fst ∧
      0x71 ≠ State.reset.profile.dutyAddr ∧ 0x71 ∉ State.reset.profile.ctlSeq.map Prod.fst := by
  decide
theorem witness_RegWriteOfTheHeldValueChangesNothing :
    (running false).block.ctl.wf = true ∧
      0x70 ∈ (running false).profile.ctlSeq.map Prod.fst ∧
      (running false).regSpace 0x70 = some 0x01#8 ∧ 0xB4 = (running false).profile.dutyAddr ∧
      (running false).regSpace 0xB4 = some 0x80#8 := by decide
theorem witness_PinMicroStepDrivesThePin : (atSeq .pin).block.seq = .pin := rfl
theorem witness_RetMicroStepEntersRunning : (atSeq .ret).block.seq = .ret := rfl
theorem witness_RegMicroStepWritesThePair :
    midBegin.cfg.wf = true ∧ midBegin.block.seq = .reg 3 ∧ 1 ≤ 3 ∧
      midBegin.profile.ctlSeq[3 - 1]? = some (0x70, 0x01#8) ∧
      (atSeq (.reg 1)).block.seq = .reg 1 ∧
      (atSeq (.reg 1)).profile.ctlSeq[1 - 1]? = some (0xB0, 0x21#8) := by decide
theorem witness_RegMicroStepFrame : ∃ t, seqstep midBegin = some (.next t) := ⟨_, rfl⟩
theorem witness_SequencerAdvancesOnePosition :
    (∃ t, transition .seqstep midBegin = some (.next t)) ∧
      (∃ t, transition .seqstep (atSeq .ret) = some (.next t)) ∧
      (∃ t, transition (.cmd 0x10000#20) State.reset = some (.next t)) ∧
      (∃ t, transition .reset midBegin = some (.next t)) ∧
      (∃ t, transition .ovf midBegin = some (.next t)) ∧
      ∃ t, transition .irqack (running true) = some (.next t) :=
  ⟨⟨_, rfl⟩, ⟨_, rfl⟩, ⟨_, rfl⟩, ⟨_, rfl⟩, ⟨_, rfl⟩, ⟨_, rfl⟩⟩
theorem witness_BeginFromIdle :
    State.reset.Admitted ∧ State.reset.block.seq = .idle ∧ 5 ≤ State.reset.profile.n + 2 :=
  ⟨admitted_reset, rfl, by decide⟩
theorem witness_RepeatedBeginChangesNothing :
    (running true).Inv ∧ (running true).Admitted ∧ (running true).block.mode = .running ∧
      (running true).block.seq = .idle := ⟨inv_running true, admitted_reset, rfl, rfl⟩
theorem witness_RepeatedBeginInterleavesHarmlessly :
    runningAgain.Inv ∧ runningAgain.block.mode = .running ∧
      (∃ t, transition .seqstep runningAgain = some (.next t)) ∧
      isWriteLabel (.cmd 0x2007F#20) = true :=
  ⟨inv_runningAgain, rfl, ⟨_, rfl⟩, by decide⟩
theorem witness_MicroStepsClearNothing :
    (∃ t, transition .seqstep runningAgain = some (.next t)) ∧
      runningAgain.block.pinDrive = true ∧ runningAgain.block.wave ≠ none ∧
      runningAgain.block.prescale1 = true ∧ runningAgain.block.ovfie = true :=
  ⟨⟨_, rfl⟩, by decide⟩
theorem witness_SequencerNeverWaits :
    runningAgain.Inv ∧ runningAgain.Admitted ∧ runningAgain.block.seq ≠ .idle :=
  ⟨inv_runningAgain, admitted_reset, by decide⟩
/-- A fair infinite run: the last micro-step of a second BEGIN, then overflows for ever. -/
def fairRun : InfiniteRun where
  state
    | 0 => (running false).setBlock ((running false).block.setSeq .ret)
    | 1 => running false
    | _ + 2 => running true
  label
    | 0 => .seqstep
    | _ + 1 => .ovf
  steps
    | 0 => rfl
    | 1 => rfl
    | _ + 2 => rfl

theorem witness_FairBeginCompletes :
    fairRun.WeaklyFair .seqstep ∧ (fairRun.state 0).Inv ∧ (∀ k, fairRun.label k ≠ .reset) ∧
      (fairRun.state 0).block.seq ≠ .idle := by
  refine ⟨fun k hk => ?_, ?_, fun k => ?_, nofun⟩
  · have h := hk (k + 2) (by omega)
    exact absurd h (by decide : ¬ enabled .seqstep (running true) = true)
  · have h := inv_running false
    exact ⟨h.1, h.2, h.3, h.4, h.5, h.6, h.7, h.8, h.9, rfl⟩
  · cases k <;> nofun

theorem witness_FairTimerAndDispatcherRecur :
    fairRun.WeaklyFair .ovf ∧ (∀ k, fairRun.label k ≠ .reset) ∧
      (fairRun.state 1).block.timerRuns = true :=
  ⟨fun k _ => ⟨k + 1, by omega, rfl⟩, witness_FairBeginCompletes.2.2.1, by decide⟩

/-- A fair infinite run of the dispatcher: overflow and acknowledge for ever. -/
def servedRun : InfiniteRun where
  state k := running (k % 2 == 0)
  label k := if k % 2 = 0 then .irqack else .ovf
  steps k := by
    rcases Nat.mod_two_eq_zero_or_one k with h | h
    · have h' : (k + 1) % 2 = 1 := by omega
      simp only [h, h']
      rfl
    · have h' : (k + 1) % 2 = 0 := by omega
      simp only [h, h']
      rfl

theorem witness_served :
    servedRun.WeaklyFair .irqack ∧ (∀ k, servedRun.label k ≠ .reset) ∧
      (servedRun.state 0).block.irq = true := by
  refine ⟨fun k _ => ⟨2 * k, by omega, ?_⟩, fun k => ?_, by decide⟩
  · simp [servedRun]
  · simp only [servedRun]
    split <;> nofun

/-- A block state of the candidate machine with a handler bound to its interrupt (R82, R136). -/
def bound (b : Block) : State := (State.resetOf Config.candidate.bindHandler).setBlock b

/-- The block at each time of `dutifulRun`: mid-scale duty and BEGIN (R164), then a cycle. -/
def dutifulBlock : Nat → Block
  | 0 => Block.afterReset (Config.dutyReset 0)
  | 1 => Block.afterReset 0x80#8
  | 2 => (Block.afterReset 0x80#8).setSeq .pin
  | 3 => ((Block.afterReset 0x80#8).setSeq (.reg 1)).drivePin
  | 4 => (((Block.afterReset 0x80#8).setSeq (.reg 2)).drivePin).setCtl [(0xB0, 0x21#8)]
  | 5 => midBegin.block
  | 6 => ((running false).block.setMode .unconfigured).setSeq .ret
  | m + 7 => (running (m % 3 == 1)).block

def dutifulLabel : Nat → StepLabel
  | 0 => .cmd 0x20000#20
  | 1 => .cmd 0x10000#20
  | 2 => .seqstep
  | 3 => .seqstep
  | 4 => .seqstep
  | 5 => .seqstep
  | 6 => .seqstep
  | m + 7 => if m % 3 = 0 then .ovf else if m % 3 = 1 then .irqack else .cmd 0x20000#20

/-- A run from reset whose host keeps every duty of R149. -/
def dutifulRun : InfiniteRun where
  state k := bound (dutifulBlock k)
  label := dutifulLabel
  steps
    | 0 => rfl
    | 1 => rfl
    | 2 => rfl
    | 3 => rfl
    | 4 => rfl
    | 5 => rfl
    | 6 => rfl
    | m + 7 => by
      have h : m % 3 = 0 ∧ (m + 1) % 3 = 1 ∨ m % 3 = 1 ∧ (m + 1) % 3 = 2 ∨
          m % 3 = 2 ∧ (m + 1) % 3 = 0 := by omega
      rcases h with ⟨h, h'⟩ | ⟨h, h'⟩ | ⟨h, h'⟩ <;> simp only [dutifulBlock, dutifulLabel, h, h'] <;>
        rfl

/-- The duties over the labels of `dutifulRun` from every time on, with what `presentsBeginOnce`
and `onTime` have counted by then. -/
theorem dutiful_begins (k : Nat) : ∀ m, presentsBeginOnceFrom okProfile .returned
    (dutifulRun.labels (m + 7) k) = true := by
  induction k with
  | zero => intro m; rfl
  | succ k ih =>
    intro m
    have hl : StartUp.after okProfile .returned (dutifulRun.label (m + 7)) = some .returned := by
      show StartUp.after okProfile .returned (dutifulLabel (m + 7)) = some .returned
      simp only [dutifulLabel]
      by_cases h0 : m % 3 = 0
      · rw [if_pos h0]; rfl
      · rw [if_neg h0]
        by_cases h1 : m % 3 = 1
        · rw [if_pos h1]; rfl
        · rw [if_neg h1]; rfl
    simpa only [InfiniteRun.labels, presentsBeginOnceFrom, hl] using ih (m + 1)

theorem dutiful_onTime (k : Nat) : ∀ m, onTimeFrom
    (if m % 3 = 2 then some 0 else if m % 3 = 0 ∧ 0 < m then some 1 else none)
    (dutifulRun.labels (m + 7) k) = true := by
  induction k with
  | zero => intro m; simp [InfiniteRun.labels, onTimeFrom]
  | succ k ih =>
    intro m
    have hl : dutifulRun.label (m + 7) = dutifulLabel (m + 7) := rfl
    have hi := ih (m + 1)
    have h : m % 3 = 0 ∧ (m + 1) % 3 = 1 ∨ m % 3 = 1 ∧ (m + 1) % 3 = 2 ∨
        m % 3 = 2 ∧ (m + 1) % 3 = 0 := by omega
    rcases h with ⟨h, h'⟩ | ⟨h, h'⟩ | ⟨h, h'⟩ <;>
      simp only [InfiniteRun.labels, hl, dutifulLabel, h, h'] at hi ⊢
    · by_cases hm : 0 < m <;> simpa [hm, onTimeFrom] using hi
    · simpa [onTimeFrom] using hi
    · simpa [onTimeFrom, show isWriteLabel (.cmd 0x20000#20) = true by decide] using hi

theorem dutiful_keepsHostDuties : dutifulRun.KeepsHostDuties where
  binds
    | 0 => by decide
    | 1 => by decide
    | 2 => by decide
    | 3 => by decide
    | 4 => by decide
    | 5 => by decide
    | 6 => by decide
    | _ + 7 => rfl
  begins
    | 0, _, _ => ⟨1, by omega, .inl rfl⟩
    | 1, _, _ => ⟨1, by omega, .inl rfl⟩
    | _ + 7, h, _ => nomatch h
  beginsOnce
    | 0 => rfl
    | 1 => rfl
    | 2 => rfl
    | 3 => rfl
    | 4 => rfl
    | 5 => rfl
    | 6 => rfl
    | k + 7 => dutiful_begins k 0
  acknowledges k _ := ⟨3 * k + 8, by omega, by
    have h0 : (3 * k + 1) % 3 ≠ 0 := by omega
    have h1 : (3 * k + 1) % 3 = 1 := by omega
    show dutifulLabel (3 * k + 1 + 7) = _
    simp only [dutifulLabel, if_neg h0, if_pos h1]⟩
  onTime
    | 0 => rfl
    | 1 => rfl
    | 2 => rfl
    | 3 => rfl
    | 4 => rfl
    | 5 => rfl
    | 6 => rfl
    | k + 7 => dutiful_onTime k 0

theorem witness_StartUpDutiesLeadToRunning :
    Config.candidate.bindHandler.wf = true ∧
      dutifulRun.state 0 = State.resetOf Config.candidate.bindHandler ∧
      dutifulRun.KeepsHostDuties ∧ dutifulRun.WeaklyFair .seqstep ∧
      (∀ k, dutifulRun.label k ≠ .reset) ∧
      ∃ t, runLabels [.cmd 0x10000#20, .reset, .cmd 0x10000#20, .seqstep]
        (State.resetOf Config.candidate.bindHandler) = some (.next t) := by
  refine ⟨by decide, rfl, dutiful_keepsHostDuties, fun k hk => ?_, ?_, _, rfl⟩
  · exact absurd (hk (k + 7) (by omega)) Bool.false_ne_true
  · intro k h
    have hl : dutifulLabel k = .reset := h
    unfold dutifulLabel at hl
    split at hl
    all_goals first
      | cases hl
      | (split at hl
         · cases hl
         · split at hl <;> cases hl)

/-- The liberty to present BEGIN again, before and after its start-up's BEGIN has returned, and in
a new start-up after a reset (R149, R162; log entry 24; nI = 1, nW = 2). -/
theorem test_presentsBeginOnce :
    presentsBeginOnce okProfile (beginRun okProfile ++ beginRun okProfile) = true ∧
      presentsBeginOnce okProfile [.cmd 0x10000#20, .seqstep, .cmd 0x10000#20] = false ∧
      presentsBeginOnce okProfile [.cmd 0x10000#20, .reset, .cmd 0x10000#20] = true := by decide

theorem witness_OverflowSetsThePendingFlag :
    midBegin.Admitted ∧ (midBegin.block.wave ≠ none ∧ midBegin.block.prescale1 = true) ∧
      ¬(State.reset.block.wave ≠ none ∧ State.reset.block.prescale1 = true) :=
  ⟨admitted_reset, by decide, by decide⟩
theorem witness_AcknowledgeClearsThePendingFlag :
    (running true).Admitted ∧
      ((running true).block.ovfPending = true ∧ (running true).block.ovfie = true) ∧
      ¬(midBegin.block.ovfPending = true ∧ midBegin.block.ovfie = true) ∧
      ∃ t u, transition .irqack (running true) = some (.next t) ∧
        StepLabel.ovf ∉ [StepLabel.cmd 0x20000#20] ∧
        runLabels [.cmd 0x20000#20] t = some (.next u) :=
  ⟨admitted_reset, by decide, by decide, _, _, rfl, by decide, rfl⟩
theorem witness_OverflowsMergeAndBoundAcknowledges :
    (∃ t, transition .ovf (running true) = some (.next t)) ∧
      (running false).block.ovfPending = false ∧
      ∃ t, runLabels [.ovf, .ovf, .irqack] (running false) = some (.next t) :=
  ⟨⟨_, rfl⟩, rfl, _, rfl⟩
theorem witness_OutputsFollowTheState :
    (running false).block.pinDrive = true ∧
      (running false).block.wave = some PwmMode.phaseCorrect ∧
      State.reset.block.pinDrive = false ∧ (State.reset.block.drivePin).wave = none ∧
      ∃ t, exec (.writeU16 300#16) (running false) = .next t := ⟨rfl, rfl, rfl, rfl, _, rfl⟩
theorem witness_MissedDeadlinesHarmNothing :
    (∀ l ∈ [StepLabel.ovf, .irqack], isWriteLabel l = false ∧ l ≠ .reset) ∧
      (∃ t, runLabels [.ovf, .irqack] (running false) = some (.next t)) ∧
      (∃ t, exec (.write (.signed8 0x80#8)) (running false) = .next t) ∧
      (running true).block.ovfPending = true ∧
      ∃ t, transition .ovf (running true) = some (.next t) :=
  ⟨by decide, ⟨_, rfl⟩, ⟨_, rfl⟩, rfl, _, rfl⟩
theorem witness_OnTimePeriodPlaysItsSample :
    StepLabel.ovf ∉ [StepLabel.cmd 0x2007F#20] ∧ StepLabel.reset ∉ [StepLabel.cmd 0x2007F#20] ∧
      onTime (.irqack :: [.cmd 0x2007F#20] ++ [.ovf]) = true ∧
      ∃ t, runLabels (.irqack :: [.cmd 0x2007F#20] ++ [.ovf]) (running true) = some (.next t) :=
  ⟨by decide, by decide, by decide, _, rfl⟩
theorem witness_ResetStepClearsTheBlock :
    (running true).setMark.cfg.wf = true ∧ (running true).setMark.secondWriter = false := by decide
theorem witness_ResetStateMeetsTheInvariant : Config.candidate.wf = true := by decide
theorem witness_StepKeepsTheInvariant :
    ((running false).setSched [.ovf]).Inv ∧
      ∃ t, step ((running false).setSched [.ovf]) = .next t :=
  let h := inv_running false
  ⟨⟨h.1, h.2, h.3, h.4, h.5, h.6, h.7, h.8, h.9, h.10⟩, _, rfl⟩
theorem witness_ReachableStatesMeetTheInvariants :
    Config.candidate.wf = true ∧ ∃ t,
      runLabels [.cmd 0x10000#20, .seqstep, .seqstep] (State.resetOf Config.candidate) =
        some (.next t) := ⟨by decide, _, rfl⟩
theorem witness_ModeIsARecordOfHistory :
    (∃ t, transition .seqstep (atSeq .ret) = some (.next t) ∧ t.block.mode = .running) ∧
      (∃ t, transition .reset (running true) = some (.next t) ∧ t.block.mode = .unconfigured) ∧
      ∃ t, transition .ovf (running true) = some (.next t) ∧ t.block.mode = .running :=
  ⟨⟨_, rfl, rfl⟩, ⟨_, rfl, rfl⟩, _, rfl, rfl⟩
theorem witness_DutyIsWrittenByWritesAndResetOnly :
    (∃ t, transition .seqstep midBegin = some (.next t)) ∧ isWriteLabel .seqstep = false ∧
      StepLabel.seqstep ≠ .reset ∧ isWriteLabel (.cmd 0x20000#20) = true :=
  ⟨⟨_, rfl⟩, by decide⟩
theorem witness_OnlyResetStopsTheBlock :
    (running false).block.timerRuns = true ∧ (running false).block.ovfie = true ∧
      (running false).block.pinDrive = true ∧ (running false).block.mode = .running ∧
      StepLabel.reset ∉ [StepLabel.ovf, .cmd 0x10000#20, .seqstep] ∧
      ∃ t, runLabels [.ovf, .cmd 0x10000#20, .seqstep] (running false) = some (.next t) :=
  ⟨rfl, rfl, rfl, rfl, by decide, _, rfl⟩
theorem witness_NoStepReadsModeDutyOrControlRegisters :
    (running false).hideUnread =
      ((running false).setBlock ((running false).block.setDuty 0xFF#8)).hideUnread := rfl
theorem witness_OnlyReservedWordsAndNestedBeginsAreRefused :
    runningAgain.Inv ∧ runningAgain.Admitted ∧
      transition (.cmd 0x10000#20) runningAgain = some (.refused .beginWhileBeginInProgress) ∧
      transition (.cmd 0x00000#20) runningAgain = some (.refused (.reservedWord .unusedOp)) :=
  ⟨inv_runningAgain, admitted_reset, rfl, rfl⟩
theorem witness_ResolveSelectsTheVariant :
    Config.candidate.targetsDisjoint = true ∧
      "__AVR_ATmega8__" ∈ Config.candidate.targetsA ∧
      "__AVR_ATmega1280__" ∈ Config.candidate.targetsB ∧
      "other" ∉ Config.candidate.targetsA ∧ "other" ∉ Config.candidate.targetsB := by decide

/-- A machine whose profile has no wave group. -/
def illFormed : State :=
  State.resetOf { Config.candidate with profileDefault := { okProfile with waveSeq := [] } }

theorem witness_IllFormedProfilesAreRefused :
    ¬(illFormed.profile.waveSeq ≠ [] ∧ illFormed.profile.irqSeq ≠ [] ∧
        (illFormed.profile.ctlSeq.map Prod.fst).Nodup ∧
        illFormed.profile.dutyAddr ∉ illFormed.profile.ctlSeq.map Prod.fst) ∧
      (State.reset.profile.waveSeq ≠ [] ∧ State.reset.profile.irqSeq ≠ [] ∧
        (State.reset.profile.ctlSeq.map Prod.fst).Nodup ∧
        State.reset.profile.dutyAddr ∉ State.reset.profile.ctlSeq.map Prod.fst ∧
        ∀ t ∈ State.reset.cfg.targetsA, t ∉ State.reset.cfg.targetsB) := by decide
theorem witness_NoStepChangesTheConfiguration :
    ∃ t, step ((running false).setSched [.reset]) = .next t := ⟨_, rfl⟩
theorem witness_RefusalMarkIsKept :
    step (State.reset.setSched [.cmd 0x50000#20]) = .refused (.reservedWord .unusedOp) ∧
      State.reset.setMark.refusalMark = true := ⟨rfl, rfl⟩
theorem witness_StepRunsTheDecodedOperation :
    (State.reset.setSched [.cmd 0x3012C#20]).Admitted ∧
      (State.reset.setSched [.cmd 0x3012C#20]).sched = .cmd 0x3012C#20 :: [] ∧
      decode 0x3012C#20 = .ok (.writeU16 300#16) := ⟨admitted_reset, rfl, by decide⟩
theorem witness_StepTakesTheOldestOffer :
    (State.reset.setSched [.ovf, .seqstep]).sched = .ovf :: [.seqstep] ∧
      transition .ovf (State.reset.setSched [.seqstep]) = none ∧
      ∃ o, transition .reset (State.reset.setSched [.seqstep]) = some o := ⟨rfl, rfl, _, rfl⟩
theorem witness_OperationAndWordLevelsAgree : (running true).Admitted := admitted_reset

end Sys2Proof.Tests
end

section
/-! The fields of the encoder's words, the round trip from operation to word and back (R74 to R76),
and the agreement of the operation level with the command-word level (R12). -/

namespace Sys2Proof

@[simp] theorem opField_encode_begin : opField (encode .begin) = 0x1#4 := by decide

@[simp] theorem payload_encode_begin : payload (encode .begin) = 0x0000#16 := by decide

@[simp] theorem opField_encode_writeS8 (s : Byte) : opField (encode (.writeS8 s)) = 0x2#4 := by
  rw [opField_eq_iff, encode_writeS8_toNat, BitVec.toNat_ofNat]
  omega

@[simp] theorem payloadHigh_encode_writeS8 (s : Byte) :
    payloadHigh (encode (.writeS8 s)) = 0x00#8 := by
  rw [payloadHigh_eq_iff, encode_writeS8_toNat, BitVec.toNat_ofNat]
  omega

@[simp] theorem payloadLow_encode_writeS8 (s : Byte) : payloadLow (encode (.writeS8 s)) = s := by
  rw [payloadLow_eq_iff, encode_writeS8_toNat]
  omega

@[simp] theorem opField_encode_writeU16 (s : Half) : opField (encode (.writeU16 s)) = 0x3#4 := by
  rw [opField_eq_iff, encode_writeU16_toNat, BitVec.toNat_ofNat]
  omega

@[simp] theorem payload_encode_writeU16 (s : Half) : payload (encode (.writeU16 s)) = s := by
  rw [payload_eq_iff, encode_writeU16_toNat]
  omega

@[simp] theorem opField_encode_writeS16 (s : Half) : opField (encode (.writeS16 s)) = 0x4#4 := by
  rw [opField_eq_iff, encode_writeS16_toNat, BitVec.toNat_ofNat]
  omega

@[simp] theorem payload_encode_writeS16 (s : Half) : payload (encode (.writeS16 s)) = s := by
  rw [payload_eq_iff, encode_writeS16_toNat]
  omega

/-- R76: the word of an operation decodes to that operation, operand included; the decoder tests
`op` and, for BEGIN and WRITE.S8, the payload bits that must be zero. -/
@[simp] theorem decode_encode (i : Instr) : decode (encode i) = .ok i := by
  cases i with
  | begin => simp [decode]
  | writeS8 s => simp [decode]
  | writeU16 s => simp [decode]
  | writeS16 s => simp [decode]

namespace Machine

theorem cmdStep_of_decode_eq_ok {w : CmdWord} {i : Instr} (h : decode w = .ok i) (s : State) :
    cmdStep w s = exec i s := by
  simp [cmdStep, h]

theorem transition_of_admitted {s : State} (h : s.Admitted) (l : StepLabel) :
    transition l s = labelStep l s := by
  obtain ⟨hcfg, hwriter, hmark⟩ := h
  exact transition_admitted l hcfg hwriter hmark

/-- In an admitted state a command word that decodes to `i` performs `exec i` (R10, R12). -/
theorem transition_cmd_of_decode_eq_ok {s : State} (h : s.Admitted) {w : CmdWord} {i : Instr}
    (hw : decode w = .ok i) : transition (.cmd w) s = some (exec i s) := by
  rw [transition_of_admitted h, labelStep, cmdStep_of_decode_eq_ok hw]

end Machine

/-- Settles O59: an admitted state performs what the word decodes to, and the word of an operation
decodes to that operation. -/
theorem operationAndWordLevelsAgree : Obligations.OperationAndWordLevelsAgree := by
  intro s i hs
  exact Machine.transition_cmd_of_decode_eq_ok hs (decode_encode i)

end Sys2Proof
end

section
/-! What the record of the block keeps of the past (10_state.md): a WRITE is fixed by its sample's
duty value (R26), who writes `seq`, `mode` and `duty` (R21, R22, R24), and that no step reads `mode`
or `duty` back (R21, R22). -/

namespace Sys2Proof

namespace Machine

/-! ### WRITE -/

theorem exec_write (p : Sample) (s : State) :
    exec (.write p) s = writeDuty (bitsN 8 (dutyOf p)) s := by
  cases p with
  | signed8 b => rfl
  | unsigned16 b => rfl
  | signed16 b => rfl

theorem exists_sample_of_isWrite {i : Instr} (h : i.isWrite = true) : ∃ p, i = .write p := by
  cases i with
  | begin => cases h
  | writeS8 b => exact ⟨.signed8 b, rfl⟩
  | writeU16 b => exact ⟨.unsigned16 b, rfl⟩
  | writeS16 b => exact ⟨.signed16 b, rfl⟩

theorem isWriteLabel_cmd {w : CmdWord} {i : Instr} (h : decode w = .ok i) :
    isWriteLabel (.cmd w) = i.isWrite := by
  simp [isWriteLabel, h]

theorem decode_of_isWriteLabel {w : CmdWord} (h : isWriteLabel (.cmd w) = true) :
    ∃ p, decode w = .ok (.write p) := by
  cases hd : decode w with
  | ok i =>
    obtain ⟨p, rfl⟩ := exists_sample_of_isWrite (isWriteLabel_cmd hd ▸ h)
    exact ⟨p, rfl⟩
  | error why => simp [isWriteLabel, hd] at h

/-- The duty register is replaced whole: the byte it held leaves no trace. -/
theorem writeDuty_setDuty (v d : Byte) (s : State) :
    writeDuty v (s.setBlock (s.block.setDuty d)) = writeDuty v s := by
  cases hw : s.secondWriter with
  | false =>
    rw [writeDuty_single v hw, writeDuty_single v (by simpa using hw)]
    rfl
  | true => rw [writeDuty_second v hw, writeDuty_second v (by simpa using hw)]

/-! ### The micro-steps, by position -/

theorem seqstep_idle {s : State} (h : s.block.seq = .idle) : seqstep s = none := by
  simp [seqstep, h]

theorem seqstep_pin {s : State} (h : s.block.seq = .pin) :
    seqstep s = some (.next (microPin s)) := by
  simp [seqstep, h]

theorem seqstep_reg {s : State} {k : Nat} (h : s.block.seq = .reg k) :
    seqstep s = some (microReg k s) := by
  simp [seqstep, h]

theorem seqstep_ret {s : State} (h : s.block.seq = .ret) :
    seqstep s = some (.next (microRet s)) := by
  simp [seqstep, h]

/-- The effect of micro-step Reg(k), whose pair is `c`, on the block: the control register, the
completions of R94 and R95, and the position (R93). -/
def Block.afterReg (p : Profile) (k : Nat) (c : Host.Cell) (b : Block) : Block :=
  (finishIrq p k (finishWave p k (b.setCtl (b.ctl.write c.1 c.2)))).setSeq (nextReg k p.n)

@[simp] theorem Block.afterReg_seq (p : Profile) (k : Nat) (c : Host.Cell) (b : Block) :
    (b.afterReg p k c).seq = nextReg k p.n := rfl

@[simp] theorem Block.afterReg_mode (p : Profile) (k : Nat) (c : Host.Cell) (b : Block) :
    (b.afterReg p k c).mode = b.mode := by
  unfold Block.afterReg finishIrq finishWave
  split <;> split <;> rfl

@[simp] theorem Block.afterReg_duty (p : Profile) (k : Nat) (c : Host.Cell) (b : Block) :
    (b.afterReg p k c).duty = b.duty := by
  unfold Block.afterReg finishIrq finishWave
  split <;> split <;> rfl

theorem ctlPair_le_n {p : Profile} {k : Nat} {c : Host.Cell} (h : ctlPair p k = some c) :
    1 ≤ k ∧ k ≤ p.n := by
  obtain ⟨_, hpos, hget⟩ := ctlPair_mem h
  obtain ⟨hlt, _⟩ := List.getElem?_eq_some_iff.mp hget
  rw [Profile.n_eq]
  omega

/-- R32: `DUTY_ADDR` is the address of no pair of `CTL_SEQ`. -/
theorem ctl_ne_dutyAddr {s : State} (hc : s.cfg.wf = true) {c : Host.Cell}
    (h : c ∈ s.profile.ctlSeq) : c.1 ≠ s.profile.dutyAddr := by
  intro heq
  have hmem : s.profile.dutyAddr ∈ s.profile.ctlAddrs := heq ▸ List.mem_map_of_mem h
  have hno : s.profile.dutyAddr ∉ s.profile.ctlAddrs := by
    simp only [Config.wf, Profile.wf, Bool.and_eq_true] at hc
    simpa [State.profile] using hc.1.2
  exact hno hmem

theorem microReg_of_ctlPair_none {k : Nat} {s : State} (hp : ctlPair s.profile k = none) :
    microReg k s = .refused (.seqOutOfRange k) := by
  simp [microReg, hp]

/-- In an accepted configuration a micro-step Reg(k) writes a control register, never the duty
register. -/
theorem microReg_of_ctlPair {k : Nat} {s : State} {c : Host.Cell} (hc : s.cfg.wf = true)
    (hp : ctlPair s.profile k = some c) :
    microReg k s = .next (s.setBlock (s.block.afterReg s.profile k c)) := by
  obtain ⟨hmem, _⟩ := ctlPair_mem hp
  have hw := regWrite_ctl c.2 (ctl_ne_dutyAddr hc hmem) (List.mem_map_of_mem hmem)
  simp [microReg, hp, hw, Block.afterReg]

theorem microReg_cases_of_wf {k : Nat} {s t : State} (hc : s.cfg.wf = true)
    (h : microReg k s = .next t) :
    ∃ c, ctlPair s.profile k = some c ∧ t = s.setBlock (s.block.afterReg s.profile k c) := by
  cases hp : ctlPair s.profile k with
  | none => rw [microReg_of_ctlPair_none hp] at h; cases h
  | some c => rw [microReg_of_ctlPair hc hp] at h; cases h; exact ⟨c, rfl, rfl⟩

theorem nextReg_of_lt {k n : Nat} (h : k < n) : nextReg k n = .reg (k + 1) := by
  simp [nextReg, h]

theorem nextReg_self (n : Nat) : nextReg n n = .ret := by
  simp [nextReg]

/-! ### Who writes `seq`, `mode` and `duty` -/

/-- R24: a micro-step moves to the next position of Pin, Reg(1) to Reg(n), Ret, Idle. -/
theorem seqstep_seq {s t : State} (hc : s.cfg.wf = true) (h : seqstep s = some (.next t)) :
    (s.block.seq = .pin ∧ t.block.seq = .reg 1) ∨
    (∃ k, s.block.seq = .reg k ∧ 1 ≤ k ∧ k < s.profile.n ∧ t.block.seq = .reg (k + 1)) ∨
    (s.block.seq = .reg s.profile.n ∧ t.block.seq = .ret) ∨
    (s.block.seq = .ret ∧ t.block.seq = .idle) := by
  obtain ⟨hs, rfl⟩ | ⟨k, hs, hk⟩ | ⟨hs, rfl⟩ := seqstep_cases h
  · exact .inl ⟨hs, rfl⟩
  · obtain ⟨c, hp, rfl⟩ := microReg_cases_of_wf hc hk
    obtain ⟨hpos, hle⟩ := ctlPair_le_n hp
    obtain hlt | rfl := Nat.lt_or_eq_of_le hle
    · exact .inr (.inl ⟨k, hs, hpos, hlt, nextReg_of_lt hlt⟩)
    · exact .inr (.inr (.inl ⟨hs, nextReg_self _⟩))
  · exact .inr (.inr (.inr ⟨hs, rfl⟩))

theorem seqstep_mode {s t : State} (hc : s.cfg.wf = true) (h : seqstep s = some (.next t)) :
    t.block.mode = if s.block.seq = .ret then .running else s.block.mode := by
  obtain ⟨hs, rfl⟩ | ⟨k, hs, hk⟩ | ⟨hs, rfl⟩ := seqstep_cases h
  · simp [hs, microPin]
  · obtain ⟨c, _, rfl⟩ := microReg_cases_of_wf hc hk
    simp [hs]
  · simp [hs, microRet]

theorem seqstep_duty {s t : State} (hc : s.cfg.wf = true) (h : seqstep s = some (.next t)) :
    t.block.duty = s.block.duty := by
  obtain ⟨_, rfl⟩ | ⟨k, _, hk⟩ | ⟨_, rfl⟩ := seqstep_cases h
  · rfl
  · obtain ⟨c, _, rfl⟩ := microReg_cases_of_wf hc hk
    simp
  · rfl

theorem exec_seq {i : Instr} {s t : State} (h : exec i s = .next t) :
    if i = .begin then s.block.seq = .idle ∧ t.block.seq = .pin
    else t.block.seq = s.block.seq := by
  obtain ⟨rfl, hs, rfl⟩ | ⟨hw, _, v, rfl⟩ := exec_cases h
  · simp [hs]
  · have hne : i ≠ .begin := by rintro rfl; cases hw
    simp [hne]

theorem exec_mode {i : Instr} {s t : State} (h : exec i s = .next t) :
    t.block.mode = s.block.mode := by
  obtain ⟨_, _, rfl⟩ | ⟨_, _, v, rfl⟩ := exec_cases h <;> rfl

theorem exec_duty_of_not_isWrite {i : Instr} {s t : State} (hi : i.isWrite = false)
    (h : exec i s = .next t) : t.block.duty = s.block.duty := by
  obtain ⟨_, _, rfl⟩ | ⟨hw, _⟩ := exec_cases h
  · rfl
  · rw [hi] at hw; cases hw

theorem transition_mode {l : StepLabel} {s t : State} (h : transition l s = some (.next t)) :
    t.block.mode =
      if l = .reset then .unconfigured
      else if l = .seqstep ∧ s.block.seq = .ret then .running
      else s.block.mode := by
  obtain ⟨hc, _, _, ⟨w, i, rfl, _, he⟩ | ⟨rfl, hq⟩ | ⟨rfl, _, rfl⟩ | ⟨rfl, _, rfl⟩ | ⟨rfl, rfl⟩⟩ :=
    transition_cases h
  · simpa using exec_mode he
  · simpa using seqstep_mode hc hq
  · simp
  · simp
  · simp

theorem transition_duty {l : StepLabel} {s t : State} (h : transition l s = some (.next t))
    (hw : isWriteLabel l = false) (hl : l ≠ .reset) : t.block.duty = s.block.duty := by
  obtain ⟨hc, _, _, ⟨w, i, rfl, hd, he⟩ | ⟨rfl, hq⟩ | ⟨rfl, _, rfl⟩ | ⟨rfl, _, rfl⟩ | ⟨rfl, _⟩⟩ :=
    transition_cases h
  · exact exec_duty_of_not_isWrite (isWriteLabel_cmd hd ▸ hw) he
  · exact seqstep_duty hc hq
  · rfl
  · rfl
  · exact absurd rfl hl

/-! ### What no step reads

A map `g` of the block that blots something out hides it from a block operation `f` when `f` after
`g` and `f` alone give the same, once blotted. -/

/-- `f` reads nothing that `g` blots out. -/
def Blind (g f : Block → Block) : Prop := ∀ b, g (f (g b)) = g (f b)

theorem Blind.comp {g f f' : Block → Block} (hf' : Blind g f') (hf : Blind g f) :
    Blind g (fun b => f' (f b)) := fun b =>
  calc g (f' (f (g b))) = g (f' (g (f (g b)))) := (hf' _).symm
    _ = g (f' (g (f b))) := by rw [hf b]
    _ = g (f' (f b)) := hf' _

/-- `g` blots out no field that decides which step is taken, and every operation the steps perform
on the block is blind to what it does blot out. -/
structure Unread (g : Block → Block) : Prop where
  seq : ∀ b, (g b).seq = b.seq
  timerRuns : ∀ b, (g b).timerRuns = b.timerRuns
  irq : ∀ b, (g b).irq = b.irq
  idem : Blind g id
  setMode : ∀ m, Blind g (·.setMode m)
  setDuty : ∀ v, Blind g (·.setDuty v)
  setSeq : ∀ q, Blind g (·.setSeq q)
  writeCtl : ∀ a v, Blind g fun b => b.setCtl (b.ctl.write a v)
  setWaveform : ∀ m, Blind g (·.setWaveform m)
  enableOverflow : Blind g Block.enableOverflow
  drivePin : Blind g Block.drivePin
  raiseOverflow : Blind g Block.raiseOverflow
  clearOverflow : Blind g Block.clearOverflow

theorem unread_mode : Unread (·.setMode .unconfigured) where
  seq _ := rfl
  timerRuns _ := rfl
  irq _ := rfl
  idem _ := rfl
  setMode _ _ := rfl
  setDuty _ _ := rfl
  setSeq _ _ := rfl
  writeCtl _ _ _ := rfl
  setWaveform _ _ := rfl
  enableOverflow _ := rfl
  drivePin _ := rfl
  raiseOverflow _ := rfl
  clearOverflow _ := rfl

theorem unread_duty : Unread (·.setDuty 0) where
  seq _ := rfl
  timerRuns _ := rfl
  irq _ := rfl
  idem _ := rfl
  setMode _ _ := rfl
  setDuty _ _ := rfl
  setSeq _ _ := rfl
  writeCtl _ _ _ := rfl
  setWaveform _ _ := rfl
  enableOverflow _ := rfl
  drivePin _ := rfl
  raiseOverflow _ := rfl
  clearOverflow _ := rfl

/-- The state with its block seen through `g`. -/
def State.onBlock (g : Block → Block) (s : State) : State := s.setBlock (g s.block)

@[simp] theorem State.onBlock_block (g : Block → Block) (s : State) :
    (s.onBlock g).block = g s.block := rfl

@[simp] theorem State.onBlock_profile (g : Block → Block) (s : State) :
    (s.onBlock g).profile = s.profile := rfl

@[simp] theorem State.onBlock_secondWriter (g : Block → Block) (s : State) :
    (s.onBlock g).secondWriter = s.secondWriter := rfl

@[simp] theorem admission_onBlock (g : Block → Block) (l : StepLabel) (s : State) :
    admission l (s.onBlock g) = admission l s := rfl

@[simp] theorem powerReset_onBlock (g : Block → Block) (s : State) :
    powerReset (s.onBlock g) = powerReset s := rfl

@[simp] theorem mapNext_next (f : State → State) (s : State) :
    mapNext f (.next s) = .next (f s) := rfl

@[simp] theorem mapNext_refused (f : State → State) (r : Refusal) :
    mapNext f (.refused r) = .refused r := rfl

section Noninterference

variable {g : Block → Block}

theorem Blind.setBlock {f : Block → Block} (hf : Blind g f) (s : State) :
    ((s.onBlock g).setBlock (f (g s.block))).onBlock g = (s.setBlock (f s.block)).onBlock g := by
  simp [State.onBlock, hf s.block]

theorem Unread.finishWave (hg : Unread g) (p : Profile) (k : Nat) :
    Blind g (Machine.finishWave p k) := by
  intro b
  unfold Machine.finishWave
  split
  · exact hg.setWaveform p.pwmMode b
  · exact hg.idem b

theorem Unread.finishIrq (hg : Unread g) (p : Profile) (k : Nat) :
    Blind g (Machine.finishIrq p k) := by
  intro b
  unfold Machine.finishIrq
  split
  · exact hg.enableOverflow b
  · exact hg.idem b

theorem Unread.afterReg (hg : Unread g) (p : Profile) (k : Nat) (c : Host.Cell) :
    Blind g (Block.afterReg p k c) :=
  (hg.setSeq _).comp ((hg.finishIrq p k).comp ((hg.finishWave p k).comp (hg.writeCtl c.1 c.2)))

theorem writeDuty_onBlock (hg : Unread g) (v : Byte) (s : State) :
    mapNext (State.onBlock g) (writeDuty v (s.onBlock g)) =
      mapNext (State.onBlock g) (writeDuty v s) := by
  cases hw : s.secondWriter with
  | false =>
    rw [writeDuty_single v hw, writeDuty_single v (by simpa using hw)]
    simpa using (hg.setDuty v).setBlock s
  | true => rw [writeDuty_second v hw, writeDuty_second v (by simpa using hw)]

theorem execBegin_onBlock (hg : Unread g) (s : State) :
    mapNext (State.onBlock g) (execBegin (s.onBlock g)) =
      mapNext (State.onBlock g) (execBegin s) := by
  cases hs : s.block.seq with
  | idle => simpa [execBegin, hs, hg.seq] using (hg.setSeq .pin).setBlock s
  | pin => simp [execBegin, hs, hg.seq]
  | reg k => simp [execBegin, hs, hg.seq]
  | ret => simp [execBegin, hs, hg.seq]

theorem exec_onBlock (hg : Unread g) (i : Instr) (s : State) :
    mapNext (State.onBlock g) (exec i (s.onBlock g)) = mapNext (State.onBlock g) (exec i s) := by
  cases i with
  | begin => exact execBegin_onBlock hg s
  | writeS8 b => exact writeDuty_onBlock hg _ s
  | writeU16 b => exact writeDuty_onBlock hg _ s
  | writeS16 b => exact writeDuty_onBlock hg _ s

theorem cmdStep_onBlock (hg : Unread g) (w : CmdWord) (s : State) :
    mapNext (State.onBlock g) (cmdStep w (s.onBlock g)) =
      mapNext (State.onBlock g) (cmdStep w s) := by
  cases hd : decode w with
  | ok i => simpa only [cmdStep_of_decode_eq_ok hd] using exec_onBlock hg i s
  | error why => simp [cmdStep, hd]

theorem microReg_onBlock (hg : Unread g) (k : Nat) {s : State} (hc : s.cfg.wf = true) :
    mapNext (State.onBlock g) (microReg k (s.onBlock g)) =
      mapNext (State.onBlock g) (microReg k s) := by
  cases hp : ctlPair s.profile k with
  | none => rw [microReg_of_ctlPair_none hp, microReg_of_ctlPair_none (by simpa using hp)]
  | some c =>
    rw [microReg_of_ctlPair hc hp, microReg_of_ctlPair (s := s.onBlock g) hc (by simpa using hp)]
    simpa using (hg.afterReg s.profile k c).setBlock s

theorem seqstep_onBlock (hg : Unread g) {s : State} (hc : s.cfg.wf = true) :
    (seqstep (s.onBlock g)).map (mapNext (State.onBlock g)) =
      (seqstep s).map (mapNext (State.onBlock g)) := by
  have hseq : (s.onBlock g).block.seq = s.block.seq := hg.seq s.block
  cases hs : s.block.seq with
  | idle => rw [seqstep_idle hs, seqstep_idle (hseq.trans hs)]
  | pin =>
    rw [seqstep_pin hs, seqstep_pin (hseq.trans hs)]
    simpa [microPin] using ((hg.setSeq (.reg 1)).comp hg.drivePin).setBlock s
  | reg k =>
    rw [seqstep_reg hs, seqstep_reg (hseq.trans hs)]
    simpa using microReg_onBlock hg k hc
  | ret =>
    rw [seqstep_ret hs, seqstep_ret (hseq.trans hs)]
    simpa [microRet] using ((hg.setSeq .idle).comp (hg.setMode .running)).setBlock s

theorem ovfStep_onBlock (hg : Unread g) (s : State) :
    (ovfStep (s.onBlock g)).map (State.onBlock g) = (ovfStep s).map (State.onBlock g) := by
  cases hr : s.block.timerRuns with
  | false => simp [ovfStep, hr, hg.timerRuns]
  | true => simpa [ovfStep, hr, hg.timerRuns] using hg.raiseOverflow.setBlock s

theorem irqackStep_onBlock (hg : Unread g) (s : State) :
    (irqackStep (s.onBlock g)).map (State.onBlock g) = (irqackStep s).map (State.onBlock g) := by
  cases hr : s.block.irq with
  | false => simp [irqackStep, hr, hg.irq]
  | true => simpa [irqackStep, takeInterrupt, hr, hg.irq] using hg.clearOverflow.setBlock s

theorem labelStep_onBlock (hg : Unread g) (l : StepLabel) {s : State} (hc : s.cfg.wf = true) :
    (labelStep l (s.onBlock g)).map (mapNext (State.onBlock g)) =
      (labelStep l s).map (mapNext (State.onBlock g)) := by
  cases l with
  | cmd w => exact congrArg some (cmdStep_onBlock hg w s)
  | seqstep => exact seqstep_onBlock hg hc
  | ovf => simpa [labelStep, Function.comp_def] using
      congrArg (Option.map Host.Outcome.next) (ovfStep_onBlock hg s)
  | irqack => simpa [labelStep, Function.comp_def] using
      congrArg (Option.map Host.Outcome.next) (irqackStep_onBlock hg s)
  | reset => rfl

/-- Blotting out what no step reads, before a step, makes no difference after it. -/
theorem transition_onBlock (hg : Unread g) (l : StepLabel) (s : State) :
    (transition l (s.onBlock g)).map (mapNext (State.onBlock g)) =
      (transition l s).map (mapNext (State.onBlock g)) := by
  cases ha : admission l s with
  | some r => simp [transition, ha]
  | none =>
    obtain ⟨hc, _⟩ := admission_none ha
    simpa [transition, ha] using labelStep_onBlock hg l hc

/-- States that are equal up to what no step reads have the same steps, up to the same. -/
theorem transition_congr (hg : Unread g) (l : StepLabel) {s u : State}
    (h : s.onBlock g = u.onBlock g) :
    (transition l s).map (mapNext (State.onBlock g)) =
      (transition l u).map (mapNext (State.onBlock g)) := by
  rw [← transition_onBlock hg l s, h, transition_onBlock hg l u]

end Noninterference

theorem cmdStep_setDuty {w : CmdWord} (hw : isWriteLabel (.cmd w) = true) (s : State) (d : Byte) :
    cmdStep w (s.setBlock (s.block.setDuty d)) = cmdStep w s := by
  obtain ⟨p, hd⟩ := decode_of_isWriteLabel hw
  simp only [cmdStep_of_decode_eq_ok hd, exec_write, writeDuty_setDuty]

theorem transition_write_setDuty {w : CmdWord} (hw : isWriteLabel (.cmd w) = true) (s : State)
    (d : Byte) : transition (.cmd w) (s.setBlock (s.block.setDuty d)) = transition (.cmd w) s := by
  have ha : admission (.cmd w) (s.setBlock (s.block.setDuty d)) = admission (.cmd w) s := rfl
  simp only [transition, labelStep, ha, cmdStep_setDuty hw]

end Machine

open Machine

/-- Settles O18: a WRITE is the write of its sample's duty value, and of nothing else. -/
theorem clampingLeavesNoTrace : Obligations.ClampingLeavesNoTrace := by
  intro p q s h
  rw [exec_write, exec_write, h]

/-- Settles O27, label by label. -/
theorem sequencerAdvancesOnePosition : Obligations.SequencerAdvancesOnePosition := by
  intro l s t h
  obtain ⟨hc, _, _, ⟨w, i, rfl, hd, he⟩ | ⟨rfl, hq⟩ | ⟨rfl, _, rfl⟩ | ⟨rfl, _, rfl⟩ | ⟨rfl, rfl⟩⟩ :=
    transition_cases h
  · simpa [hd] using exec_seq he
  · exact seqstep_seq hc hq
  · rfl
  · rfl
  · rfl

/-- Settles O48: Ret and reset are the only writers of `mode`, and states that differ in `mode`
alone are equal once it is blotted out. -/
theorem modeIsARecordOfHistory : Obligations.ModeIsARecordOfHistory :=
  ⟨fun _ _ _ h => transition_mode h, fun l _ _ => transition_congr unread_mode l rfl⟩

/-- Settles O49: `duty` stands at `DUTY_ADDR`, an accepted configuration's micro-steps write other
registers, and a WRITE replaces the byte that no step reads. -/
theorem dutyIsWrittenByWritesAndResetOnly : Obligations.DutyIsWrittenByWritesAndResetOnly := by
  refine ⟨?_, ?_, ?_, ?_⟩
  · intro s
    simp [State.regSpace]
  · intro l s t h hw hl
    exact transition_duty h hw hl
  · intro l s d
    exact transition_congr unread_duty l rfl
  · intro w s d hw
    exact transition_write_setDuty hw s d

end Sys2Proof
end

section
/-! A word is the concatenation of its fields (R74), so a word that decodes is the encoding of what
it decodes to, and so is a word that selects a row; the opcode map (R76) and operand assembly (R75)
follow from what is known of encodings. -/

namespace Sys2Proof

theorem opField_append_payload (w : CmdWord) : opField w ++ payload w = w := by
  have h : opField w ++ payload w = w.extractLsb' 0 20 :=
    BitVec.extractLsb'_append_extractLsb'_eq_extractLsb' rfl
  rw [h, BitVec.extractLsb'_eq_self]

theorem payloadHigh_append_payloadLow (w : CmdWord) : payloadHigh w ++ payloadLow w = payload w :=
  BitVec.extractLsb'_append_extractLsb'_eq_extractLsb' rfl

theorem opField_append_payloadHigh_append_payloadLow (w : CmdWord) :
    opField w ++ payloadHigh w ++ payloadLow w = w := by
  have h : opField w ++ payloadHigh w ++ payloadLow w = opField w ++ payload w := by
    rw [← payloadHigh_append_payloadLow]
    exact BitVec.append_assoc
  rw [h, opField_append_payload]

/-- R76, R79: each operation has one word. -/
theorem encode_eq_of_decode_eq_ok {w : CmdWord} {i : Instr} (h : decode w = .ok i) :
    encode i = w := by
  have hw := opField_append_payload w
  have hw' := opField_append_payloadHigh_append_payloadLow w
  unfold decode at h
  split_ifs at h with h1 h2 h3 h4 h5 h6 <;> cases h
  · rwa [h1, h2] at hw
  · rwa [h3, h4] at hw'
  · rwa [h5] at hw
  · rwa [h6] at hw

/-! ### The rows of the opcode map -/

theorem row_mem_opcodeTable (i : Instr) : i.row ∈ opcodeTable := by
  cases i with
  | begin => simp [opcodeTable]
  | writeS8 s => simp [opcodeTable, Instr.row]
  | writeU16 s => simp [opcodeTable, Instr.row]
  | writeS16 s => simp [opcodeTable, Instr.row]

theorem exists_row_of_mem_opcodeTable {r : OpcodeRow} (h : r ∈ opcodeTable) :
    ∃ i : Instr, i.row = r := by
  simp only [opcodeTable, List.mem_cons, List.not_mem_nil, or_false] at h
  obtain rfl | rfl | rfl | rfl := h <;> exact ⟨_, rfl⟩

theorem encode_selects_row (i : Instr) : encode i &&& i.row.mask = i.row.matchBits := by
  cases i with
  | begin => exact Laws.RowOfWord.begin
  | writeS8 s => exact Laws.RowOfWord.writeS8 s
  | writeU16 s => exact Laws.RowOfWord.writeU16 s
  | writeS16 s => exact Laws.RowOfWord.writeS16 s

/-- The mask leaves the fixed fields of the format; the operand is what stands in the others. -/
theorem exists_encode_eq_of_selects_row {w : CmdWord} {i : Instr}
    (h : w &&& i.row.mask = i.row.matchBits) : ∃ j, encode j = w ∧ j.row = i.row := by
  have hw := opField_append_payload w
  have hw' := opField_append_payloadHigh_append_payloadLow w
  cases i with
  | begin => exact ⟨.begin, ((and_mask_all w).symm.trans h).symm, rfl⟩
  | writeS8 s =>
    have hop : opField w ++ payloadHigh w = 0x200#12 :=
      (BitVec.append_left_inj 0x00#8).mp ((and_mask_op_high w).symm.trans h)
    rw [hop] at hw'
    exact ⟨.writeS8 (payloadLow w), hw', rfl⟩
  | writeU16 s =>
    have hop : opField w = 0x3#4 :=
      (BitVec.append_left_inj 0x0000#16).mp ((and_mask_op w).symm.trans h)
    rw [hop] at hw
    exact ⟨.writeU16 (payload w), hw, rfl⟩
  | writeS16 s =>
    have hop : opField w = 0x4#4 :=
      (BitVec.append_left_inj 0x0000#16).mp ((and_mask_op w).symm.trans h)
    rw [hop] at hw
    exact ⟨.writeS16 (payload w), hw, rfl⟩

theorem selects_row_of_decode_eq_ok {w : CmdWord} {i : Instr} (h : decode w = .ok i) :
    w &&& i.row.mask = i.row.matchBits := by
  rw [← encode_eq_of_decode_eq_ok h]
  exact encode_selects_row i

theorem decode_of_selects {w : CmdWord} {r : OpcodeRow} (hr : r ∈ opcodeTable)
    (h : w &&& r.mask = r.matchBits) : ∃ i, decode w = .ok i ∧ i.row = r := by
  obtain ⟨i, rfl⟩ := exists_row_of_mem_opcodeTable hr
  obtain ⟨j, rfl, hrow⟩ := exists_encode_eq_of_selects_row h
  exact ⟨j, decode_encode j, hrow⟩

/-- Settles O4: a word that selects a row decodes to an operation of that row, and it decodes to one
operation only, so the rows are disjoint. -/
theorem wordsSelectTheRowOfTheirOperation : Obligations.WordsSelectTheRowOfTheirOperation := by
  refine ⟨rfl, fun w i h => ⟨row_mem_opcodeTable i, selects_row_of_decode_eq_ok h⟩,
    fun w r hr h => decode_of_selects hr h, ?_⟩
  intro w r hr q hq h h'
  obtain ⟨i, hi, rfl⟩ := decode_of_selects hr h
  obtain ⟨j, hj, rfl⟩ := decode_of_selects hq h'
  have hij : i = j := Except.ok.inj (hi.symm.trans hj)
  rw [hij]

/-! ### The operand's value -/

namespace Machine

theorem sN_eq_toInt {n : Nat} (b : BitVec n) : sN b = b.toInt := by
  rw [sN, uN, BitVec.toInt_eq_msb_cond]
  cases b.msb <;> simp

/-- R8: two's complement by the pattern's number. -/
theorem sN_eq_ite {n : Nat} (b : BitVec (n + 1)) :
    sN b = if b.toNat < 2 ^ n then (b.toNat : Int) else b.toNat - 2 ^ (n + 1) := by
  have hhalf : 2 * b.toNat < 2 ^ (n + 1) ↔ b.toNat < 2 ^ n := by
    rw [Nat.pow_succ]
    omega
  simp only [sN_eq_toInt, BitVec.toInt_eq_toNat_cond, hhalf, Nat.cast_pow, Nat.cast_ofNat]

end Machine

open Machine

/-- Settles O5: the word is the encoding of what it decodes to, so the number of an encoding gives
the operand's bits. -/
theorem operandsAreAssembledFromThePayload : Obligations.OperandsAreAssembledFromThePayload := by
  intro w
  refine ⟨?_, ?_, ?_, ?_⟩
  · intro b h
    have hb := b.isLt
    have hw : w.toNat = 131072 + b.toNat := by
      rw [← encode_eq_of_decode_eq_ok h, encode_writeS8_toNat]
    have hlow : w.toNat % 2 ^ 8 = b.toNat := by omega
    refine ⟨by omega, ?_⟩
    rw [operandS8, sN_eq_ite, ← hlow]
    rfl
  · intro b h
    have hb := b.isLt
    have hw : w.toNat = 196608 + b.toNat := by
      rw [← encode_eq_of_decode_eq_ok h, encode_writeU16_toNat]
    rw [operandU16, uN]
    omega
  · intro b h
    have hb := b.isLt
    have hw : w.toNat = 262144 + b.toNat := by
      rw [← encode_eq_of_decode_eq_ok h, encode_writeS16_toNat]
    have hlow : w.toNat % 2 ^ 16 = b.toNat := by omega
    rw [operandS16, sN_eq_ite, ← hlow]
    rfl
  · intro h
    rw [← encode_eq_of_decode_eq_ok h, encode_begin_toNat]
    rfl

end Sys2Proof
end

section
/-! The init sequencer (40_init_sequence.md): the answers of BEGIN (R91, R100), the whole next state
of each micro-step (R92 to R96), and that no step but a reset stops what BEGIN has started (R101),
carried along runs by one induction over their labels. -/

namespace Sys2Proof

/-- R32: the irq group is not empty, so the wave group is complete before the last pair. -/
theorem Profile.nW_lt_n {p : Profile} (h : p.wf = true) : p.nW < p.n := by
  simp only [Profile.wf, Bool.and_eq_true, Bool.not_eq_true', List.isEmpty_eq_false_iff] at h
  obtain ⟨⟨⟨_, hirq⟩, _⟩, _⟩ := h
  have hpos : 0 < p.nI := List.length_pos_of_ne_nil hirq
  rw [Profile.n]
  omega

theorem Config.active_wf {c : Config} (h : c.wf = true) : c.active.wf = true := by
  simp only [Config.wf, Bool.and_eq_true] at h
  exact h.1

namespace Machine

/-! ### BEGIN -/

theorem execBegin_of_idle {s : State} (h : s.block.seq = .idle) :
    execBegin s = .next (s.setBlock (s.block.setSeq .pin)) := by
  simp [execBegin, h]

theorem execBegin_of_ne_idle {s : State} (h : s.block.seq ≠ .idle) :
    execBegin s = .refused .beginWhileBeginInProgress := by
  cases hs : s.block.seq with
  | idle => exact absurd hs h
  | pin => simp [execBegin, hs]
  | reg k => simp [execBegin, hs]
  | ret => simp [execBegin, hs]

/-! ### Micro-step Reg(k) -/

theorem ctlPair_of_pos {k : Nat} (p : Profile) (h : 1 ≤ k) : ctlPair p k = p.ctlSeq[k - 1]? := by
  cases k with
  | zero => omega
  | succ j => rfl

theorem finishWave_eq (p : Profile) (k : Nat) (b : Block) :
    finishWave p k b =
      { b with
        wave := if k = p.nW then some p.pwmMode else b.wave
        prescale1 := if k = p.nW then true else b.prescale1 } := by
  unfold finishWave
  split <;> rfl

theorem finishIrq_eq (p : Profile) (k : Nat) (b : Block) :
    finishIrq p k b = { b with ovfie := if k = p.n then true else b.ovfie } := by
  unfold finishIrq
  split <;> rfl

/-- Field by field, what micro-step Reg(k) makes of the block (R93 to R95). -/
theorem Block.afterReg_eq (p : Profile) (k : Nat) (c : Host.Cell) (b : Block) :
    b.afterReg p k c =
      { b with
        ctl := b.ctl.write c.1 c.2
        wave := if k = p.nW then some p.pwmMode else b.wave
        prescale1 := if k = p.nW then true else b.prescale1
        ovfie := if k = p.n then true else b.ovfie
        seq := if k < p.n then .reg (k + 1) else .ret } := by
  rw [Block.afterReg, finishIrq_eq, finishWave_eq]
  rfl

@[simp] theorem Block.afterReg_timerRuns (p : Profile) (k : Nat) (c : Host.Cell) (b : Block) :
    (b.afterReg p k c).timerRuns = if k = p.nW then true else b.timerRuns := by
  rw [Block.afterReg_eq]
  by_cases hW : k = p.nW <;> simp [Block.timerRuns, hW]

@[simp] theorem Block.afterReg_ovfie (p : Profile) (k : Nat) (c : Host.Cell) (b : Block) :
    (b.afterReg p k c).ovfie = if k = p.n then true else b.ovfie := by
  rw [Block.afterReg_eq]

@[simp] theorem Block.afterReg_pinDrive (p : Profile) (k : Nat) (c : Host.Cell) (b : Block) :
    (b.afterReg p k c).pinDrive = b.pinDrive := by
  rw [Block.afterReg_eq]

/-! ### Runs -/

theorem runLabels_cons_eq_next {l : StepLabel} {ls : List StepLabel} {s t : State}
    (h : runLabels (l :: ls) s = some (.next t)) :
    ∃ u, transition l s = some (.next u) ∧ runLabels ls u = some (.next t) := by
  unfold runLabels at h
  split at h
  · cases h
  · exact ⟨_, ‹_›, h⟩
  · cases h
  · cases h

/-- What every step of a run keeps, the run keeps. -/
theorem runLabels_keeps {P : State → Prop} {ls : List StepLabel} {s t : State}
    (hstep : ∀ l ∈ ls, ∀ u v, transition l u = some (.next v) → P u → P v)
    (h : runLabels ls s = some (.next t)) (hs : P s) : P t := by
  induction ls generalizing s with
  | nil => cases h; exact hs
  | cons l ls ih =>
    obtain ⟨u, hl, hrest⟩ := runLabels_cons_eq_next h
    exact ih (fun m hm => hstep m (.tail _ hm)) hrest (hstep l (.head _) s u hl hs)

/-! ### Nothing but a reset stops the block -/

/-- Whatever BEGIN has started in `b` (R101) is still going in `c`. -/
structure Block.StillGoing (b c : Block) : Prop where
  timerRuns : b.timerRuns = true → c.timerRuns = true
  ovfie : b.ovfie = true → c.ovfie = true
  pinDrive : b.pinDrive = true → c.pinDrive = true
  running : b.mode = .running → c.mode = .running

theorem Block.StillGoing.refl (b : Block) : b.StillGoing b := ⟨id, id, id, id⟩

theorem Block.StillGoing.trans {b c d : Block} (h₁ : b.StillGoing c) (h₂ : c.StillGoing d) :
    b.StillGoing d :=
  ⟨h₂.timerRuns ∘ h₁.timerRuns, h₂.ovfie ∘ h₁.ovfie, h₂.pinDrive ∘ h₁.pinDrive,
    h₂.running ∘ h₁.running⟩

theorem Block.stillGoing_afterReg (p : Profile) (k : Nat) (c : Host.Cell) (b : Block) :
    b.StillGoing (b.afterReg p k c) where
  timerRuns h := by simp [h]
  ovfie h := by simp [h]
  pinDrive h := by simp [h]
  running h := by simp [h]

theorem exec_stillGoing {i : Instr} {s t : State} (h : exec i s = .next t) :
    s.block.StillGoing t.block := by
  obtain ⟨_, _, rfl⟩ | ⟨_, _, v, rfl⟩ := exec_cases h
  · exact ⟨id, id, id, id⟩
  · exact ⟨id, id, id, id⟩

/-- R98: the micro-steps only set. -/
theorem seqstep_stillGoing {s t : State} (hc : s.cfg.wf = true)
    (h : seqstep s = some (.next t)) : s.block.StillGoing t.block := by
  obtain ⟨_, rfl⟩ | ⟨k, _, hk⟩ | ⟨_, rfl⟩ := seqstep_cases h
  · exact ⟨id, id, fun _ => rfl, id⟩
  · obtain ⟨c, _, rfl⟩ := microReg_cases_of_wf hc hk
    exact Block.stillGoing_afterReg s.profile k c s.block
  · exact ⟨id, id, id, fun _ => rfl⟩

theorem transition_stillGoing {l : StepLabel} {s t : State}
    (h : transition l s = some (.next t)) (hl : l ≠ .reset) : s.block.StillGoing t.block := by
  obtain ⟨hc, _, _, ⟨w, i, rfl, _, he⟩ | ⟨rfl, hq⟩ | ⟨rfl, _, rfl⟩ | ⟨rfl, _, rfl⟩ | ⟨rfl, rfl⟩⟩ :=
    transition_cases h
  · exact exec_stillGoing he
  · exact seqstep_stillGoing hc hq
  · exact ⟨id, id, id, id⟩
  · exact ⟨id, id, id, id⟩
  · exact absurd rfl hl

theorem runLabels_stillGoing {ls : List StepLabel} {s t : State} (hr : StepLabel.reset ∉ ls)
    (h : runLabels ls s = some (.next t)) : s.block.StillGoing t.block := by
  refine runLabels_keeps (P := fun u => s.block.StillGoing u.block) ?_ h (.refl _)
  intro l hl u v huv hu
  exact hu.trans (transition_stillGoing huv (ne_of_mem_of_not_mem hl hr))

end Machine

open Machine

/-- Settles O24: the pair's address is a control register's, and the micro-step's effect on the
block is known field by field. -/
theorem regMicroStepWritesThePair : Obligations.RegMicroStepWritesThePair := by
  intro s k a v hc hs hk hpair
  refine ⟨Profile.nW_lt_n (Config.active_wf hc), ?_⟩
  have hp : ctlPair s.profile k = some (a, v) := (ctlPair_of_pos _ hk).trans hpair
  rw [seqstep_reg hs, microReg_of_ctlPair hc hp, Block.afterReg_eq]
  rfl

/-- Settles O50: no step but a reset stops anything, and so no run without one does. -/
theorem onlyResetStopsTheBlock : Obligations.OnlyResetStopsTheBlock := by
  intro ls s t hr h
  obtain ⟨htimer, hovfie, hpin, hrun⟩ := runLabels_stillGoing hr h
  exact ⟨htimer, hovfie, hpin, hrun⟩

/-- Settles O11: the word is the encoding of BEGIN, which is accepted at Idle only. -/
theorem beginStartsTheSequencer : Obligations.BeginStartsTheSequencer :=
  ⟨decode_encode .begin, fun _ => ⟨execBegin_of_idle, execBegin_of_ne_idle⟩⟩

/-- Settles O23: at Pin the `seqstep` is `microPin`, which sets these two fields. -/
theorem pinMicroStepDrivesThePin : Obligations.PinMicroStepDrivesThePin :=
  fun _ hs => seqstep_pin hs

/-- Settles O26: at Ret the `seqstep` is `microRet`, which sets these two fields. -/
theorem retMicroStepEntersRunning : Obligations.RetMicroStepEntersRunning :=
  fun _ hs => seqstep_ret hs

end Sys2Proof
end

section
/-! The sample converter (41_sample_converter.md): each conversion by the ranges of its rule (R111
to R113), that a duty value fits in the duty register (R121), and so the whole next state of a
WRITE by its sample's duty value (R115 to R117). -/

namespace Sys2Proof

namespace Machine

/-! ### The conversions, by range -/

theorem fromSigned8_mem_Icc {s : Int} (hs : s ∈ Set.Icc (-128) 127) :
    fromSigned8 s ∈ Set.Icc 0 255 := by
  obtain ⟨hlo, hhi⟩ := hs
  exact ⟨Int.add_le_add_right hlo 128, Int.add_le_add_right hhi 128⟩

theorem fromUnsigned16_of_le {s : Int} (h : s ≤ 255) : fromUnsigned16 s = s :=
  min_eq_left h

theorem fromUnsigned16_of_ge {s : Int} (h : 255 ≤ s) : fromUnsigned16 s = 255 :=
  min_eq_right h

theorem clamp_mem_Icc (z : Int) {lo hi : Int} (h : lo ≤ hi) : clamp z lo hi ∈ Set.Icc lo hi :=
  ⟨le_max_left _ _, max_le h (min_le_right _ _)⟩

theorem clamp_of_mem_Icc {z lo hi : Int} (h : z ∈ Set.Icc lo hi) : clamp z lo hi = z := by
  rw [clamp, min_eq_left h.2, max_eq_right h.1]

theorem clamp_of_ge {z lo hi : Int} (h : lo ≤ hi) (hz : hi ≤ z) : clamp z lo hi = hi := by
  rw [clamp, min_eq_right hz, max_eq_right h]

theorem clamp_of_le {z lo hi : Int} (hz : z ≤ lo) : clamp z lo hi = lo :=
  max_eq_left ((min_le_left z hi).trans hz)

/-- R113: the clamp first, the bias second. -/
theorem fromSigned16_eq_fromSigned8_clamp (s : Int) :
    fromSigned16 s = fromSigned8 (clamp s (-128) 127) := rfl

theorem fromSigned16_of_mem_Icc {s : Int} (h : s ∈ Set.Icc (-128) 127) :
    fromSigned16 s = fromSigned8 s := by
  rw [fromSigned16_eq_fromSigned8_clamp, clamp_of_mem_Icc h]

theorem fromSigned16_of_ge {s : Int} (h : 127 ≤ s) : fromSigned16 s = 255 := by
  rw [fromSigned16, clamp_of_ge (by decide) h]
  rfl

theorem fromSigned16_of_le {s : Int} (h : s ≤ -128) : fromSigned16 s = 0 := by
  rw [fromSigned16, clamp_of_le h]
  rfl

/-! ### The duty value of a sample -/

theorem operandS8_mem_Icc (b : Byte) : operandS8 b ∈ Set.Icc (-128) 127 := by
  rw [operandS8, sN_eq_toInt]
  exact ⟨b.le_toInt, Int.le_sub_one_of_lt b.toInt_lt⟩

/-- R121: the value of every sample is in the duty register's range. -/
theorem dutyOf_mem_Icc (p : Sample) : dutyOf p ∈ Set.Icc 0 255 := by
  cases p with
  | signed8 b => exact fromSigned8_mem_Icc (operandS8_mem_Icc b)
  | unsigned16 b => exact ⟨le_min (Int.natCast_nonneg _) (by decide), min_le_right _ _⟩
  | signed16 b => exact fromSigned8_mem_Icc (clamp_mem_Icc (operandS16 b) (by decide))

/-- R8: the pattern of an integer keeps its value modulo `2 ^ n`. -/
theorem uN_bitsN (n : Nat) (z : Int) : uN (bitsN n z) = z % 2 ^ n := by
  rw [uN, bitsN, BitVec.toNat_ofInt, Int.toNat_of_nonneg (Int.emod_nonneg _ (by simp))]
  simp

/-- R121: `bits_8` drops nothing of a duty value. -/
theorem uN_bitsN_dutyOf (p : Sample) : uN (bitsN 8 (dutyOf p)) = dutyOf p := by
  obtain ⟨hlo, hhi⟩ := dutyOf_mem_Icc p
  rw [uN_bitsN]
  exact Int.emod_eq_of_lt hlo (Int.lt_add_one_of_le hhi)

/-- R115 to R117: the WRITE of a sample by the single writer leaves the sample's duty value in the
duty register, and nothing else changes. -/
theorem exec_write_sets_duty (p : Sample) {s : State} (h : s.secondWriter = false) :
    ∃ d : Byte, exec (.write p) s = .next { s with block := { s.block with duty := d } } ∧
      (d.toNat : Int) = dutyOf p :=
  ⟨bitsN 8 (dutyOf p), (exec_write p s).trans (writeDuty_single _ h), uN_bitsN_dutyOf p⟩

theorem dutyOf_signed8 (b : Byte) : dutyOf (.signed8 b) = b.toInt + 128 := by
  rw [dutyOf, fromSigned8, operandS8, sN_eq_toInt]

theorem dutyOf_unsigned16 (b : Half) : dutyOf (.unsigned16 b) = (min b.toNat 255 : Nat) := by
  rw [dutyOf, fromUnsigned16, operandU16, uN, Nat.cast_min, Nat.cast_ofNat]

theorem dutyOf_signed16 (b : Half) :
    dutyOf (.signed16 b) = max (-128) (min b.toInt 127) + 128 := by
  rw [dutyOf, fromSigned16, clamp, operandS16, sN_eq_toInt]

end Machine

open Machine

/-- Settles O12: the word is the encoding of the operation, and the duty value of a `Signed8` sample
is its two's complement value plus 128. -/
theorem writeS8SetsTheDuty : Obligations.WriteS8SetsTheDuty := by
  refine ⟨fun b => decode_encode (.writeS8 b), fun b s hs => ?_⟩
  rw [← dutyOf_signed8]
  exact exec_write_sets_duty (.signed8 b) hs

/-- Settles O13: the word is the encoding of the operation, and the duty value of an `Unsigned16`
sample is its value cut off at 255. -/
theorem writeU16SetsTheDuty : Obligations.WriteU16SetsTheDuty := by
  refine ⟨fun b => decode_encode (.writeU16 b), fun b s hs => ?_⟩
  obtain ⟨d, hexec, hd⟩ := exec_write_sets_duty (.unsigned16 b) hs
  exact ⟨d, hexec, Int.ofNat_inj.mp (hd.trans (dutyOf_unsigned16 b))⟩

/-- Settles O14: the word is the encoding of the operation, and the duty value of a `Signed16`
sample is its two's complement value, clamped, plus 128. -/
theorem writeS16SetsTheDuty : Obligations.WriteS16SetsTheDuty := by
  refine ⟨fun b => decode_encode (.writeS16 b), fun b s hs => ?_⟩
  rw [← dutyOf_signed16]
  exact exec_write_sets_duty (.signed16 b) hs

/-- Settles O7: the formulas are the conversions range by range; the listed values are closed. -/
theorem conversionsAreAsTheRulesGiveThem : Obligations.ConversionsAreAsTheRulesGiveThem := by
  refine ⟨?_, by decide, ?_, by decide, ?_, by decide⟩
  · intro s hlo hhi
    exact ⟨rfl, fromSigned8_mem_Icc ⟨hlo, hhi⟩⟩
  · intro s _ _
    exact ⟨fromUnsigned16_of_le, fun h => fromUnsigned16_of_ge h.le⟩
  · intro s _ _
    refine ⟨fun h => fromSigned16_of_ge h.le, fun h => fromSigned16_of_le h.le, fun hlo hhi => ?_⟩
    have heq : fromSigned16 s = fromSigned8 s := fromSigned16_of_mem_Icc ⟨hlo, hhi⟩
    exact ⟨heq, heq⟩

end Sys2Proof
end

section
/-! The overflow interrupt and what the block does when the host misses its duties
(60_exceptions.md): who writes the pending flag (R25), that a pending overflow pays for at most one
acknowledge (R133), the effect of `ovf` and `irqack` (R134, R138), and the refusals that are left
in an admitted state (R130). -/

namespace Sys2Proof

theorem Instr.isWrite_of_ne_begin {i : Instr} (h : i ≠ .begin) : i.isWrite = true := by
  cases i with
  | begin => exact absurd rfl h
  | writeS8 b => rfl
  | writeU16 b => rfl
  | writeS16 b => rfl

namespace Machine

/-! ### The interrupt output -/

theorem Block.irq_iff (b : Block) : b.irq = true ↔ b.ovfPending = true ∧ b.ovfie = true := by
  rw [Block.irq, Bool.and_eq_true]

theorem Block.irq_of_not_pending {b : Block} (h : b.ovfPending = false) : b.irq = false := by
  rw [Block.irq, h, Bool.false_and]

theorem irqackStep_of_irq {s : State} (h : s.block.irq = true) :
    irqackStep s = some (takeInterrupt s) := if_pos h

theorem irqackStep_of_not_irq {s : State} (h : ¬ s.block.irq = true) : irqackStep s = none :=
  if_neg h

/-! ### Who writes the pending flag -/

@[simp] theorem Block.afterReg_ovfPending (p : Profile) (k : Nat) (c : Host.Cell) (b : Block) :
    (b.afterReg p k c).ovfPending = b.ovfPending := by
  rw [Block.afterReg_eq]

theorem exec_ovfPending {i : Instr} {s t : State} (h : exec i s = .next t) :
    t.block.ovfPending = s.block.ovfPending := by
  obtain ⟨_, _, rfl⟩ | ⟨_, _, v, rfl⟩ := exec_cases h
  · rfl
  · rfl

theorem seqstep_ovfPending {s t : State} (hc : s.cfg.wf = true)
    (h : seqstep s = some (.next t)) : t.block.ovfPending = s.block.ovfPending := by
  obtain ⟨_, rfl⟩ | ⟨k, _, hk⟩ | ⟨_, rfl⟩ := seqstep_cases h
  · rfl
  · obtain ⟨c, _, rfl⟩ := microReg_cases_of_wf hc hk
    exact Block.afterReg_ovfPending s.profile k c s.block
  · rfl

/-- R133, for one step, the flag counted as 0 or 1: only an `ovf` raises it, and an `irqack` takes
it. -/
theorem transition_ack_le_ovf {l : StepLabel} {s t : State}
    (h : transition l s = some (.next t)) :
    [l].count .irqack + t.block.ovfPending.toNat ≤ [l].count .ovf + s.block.ovfPending.toNat := by
  obtain ⟨hc, _, _, ⟨w, i, rfl, _, he⟩ | ⟨rfl, hq⟩ | ⟨rfl, _, rfl⟩ | ⟨rfl, hi, rfl⟩ | ⟨rfl, rfl⟩⟩ :=
    transition_cases h
  · simp [exec_ovfPending he]
  · simp [seqstep_ovfPending hc hq]
  · simp
  · obtain ⟨hpending, _⟩ := (Block.irq_iff _).mp hi
    simp [hpending]
  · simp

theorem runLabels_ack_le_ovf {ls : List StepLabel} {s t : State}
    (h : runLabels ls s = some (.next t)) :
    ls.count .irqack + t.block.ovfPending.toNat ≤ ls.count .ovf + s.block.ovfPending.toNat := by
  induction ls generalizing s with
  | nil => cases h; rfl
  | cons l ls ih =>
    obtain ⟨u, hl, hrest⟩ := runLabels_cons_eq_next h
    have hstep := transition_ack_le_ovf hl
    have hrun := ih hrest
    rw [← List.singleton_append, List.count_append, List.count_append]
    omega

/-- R25: no step but an `ovf` raises the flag. -/
theorem transition_keeps_not_pending {l : StepLabel} {s t : State}
    (h : transition l s = some (.next t)) (hl : l ≠ .ovf) (hs : s.block.ovfPending = false) :
    t.block.ovfPending = false := by
  have hstep := transition_ack_le_ovf h
  have hovf : [l].count .ovf = 0 := List.count_eq_zero.mpr (by simpa using hl.symm)
  rw [hs, hovf, Bool.toNat_false] at hstep
  exact Bool.toNat_eq_zero.mp (by omega)

theorem runLabels_keeps_not_pending {ls : List StepLabel} {s t : State} (ho : StepLabel.ovf ∉ ls)
    (h : runLabels ls s = some (.next t)) (hs : s.block.ovfPending = false) :
    t.block.ovfPending = false :=
  runLabels_keeps (P := fun u => u.block.ovfPending = false)
    (fun _ hl _ _ huv => transition_keeps_not_pending huv (ne_of_mem_of_not_mem hl ho)) h hs

/-! ### `ovf` and `irqack` -/

theorem transition_irqack_eq_next {s t : State} (h : transition .irqack s = some (.next t)) :
    s.block.irq = true ∧ t = takeInterrupt s := by
  obtain ⟨_, _, _, hlabel⟩ := transition_cases h
  simpa using hlabel

theorem transition_ovf_eq_next {s t : State} (h : transition .ovf s = some (.next t)) :
    s.block.timerRuns = true ∧ t = s.setBlock s.block.raiseOverflow := by
  obtain ⟨_, _, _, hlabel⟩ := transition_cases h
  simpa using hlabel

/-- R133: the flag does not count, so an `ovf` does as much whether or not one is pending. -/
theorem transition_ovf_raiseOverflow (s : State) :
    transition .ovf (s.setBlock s.block.raiseOverflow) = transition .ovf s := rfl

theorem Block.raiseOverflow_of_pending {b : Block} (h : b.ovfPending = true) :
    b.raiseOverflow = b := by
  rw [Block.raiseOverflow, ← h]

/-! ### What an admitted state refuses -/

theorem exec_eq_refused {i : Instr} {s : State} {r : Refusal} (hw : s.secondWriter = false)
    (h : exec i s = .refused r) :
    i = .begin ∧ s.block.seq ≠ .idle ∧ r = .beginWhileBeginInProgress := by
  by_cases hi : i = .begin
  · subst hi
    by_cases hs : s.block.seq = .idle
    · cases (execBegin_of_idle hs).symm.trans h
    · cases (execBegin_of_ne_idle hs).symm.trans h
      exact ⟨rfl, hs, rfl⟩
  · obtain ⟨p, rfl⟩ := exists_sample_of_isWrite (Instr.isWrite_of_ne_begin hi)
    obtain ⟨_, hnext, _⟩ := exec_write_sets_duty p hw
    cases hnext.symm.trans h

theorem cmdStep_eq_refused {w : CmdWord} {s : State} {r : Refusal} (hw : s.secondWriter = false)
    (h : cmdStep w s = .refused r) :
    (∃ why, decode w = .error why ∧ r = .reservedWord why) ∨
    (w = encode .begin ∧ s.block.seq ≠ .idle ∧ r = .beginWhileBeginInProgress) := by
  cases hd : decode w with
  | ok i =>
    rw [cmdStep_of_decode_eq_ok hd] at h
    obtain ⟨rfl, hs, hr⟩ := exec_eq_refused hw h
    exact .inr ⟨(encode_eq_of_decode_eq_ok hd).symm, hs, hr⟩
  | error why =>
    simp only [cmdStep, hd] at h
    cases h
    exact .inl ⟨why, rfl, rfl⟩

theorem exists_ctlPair {p : Profile} {k : Nat} (hpos : 1 ≤ k) (hle : k ≤ p.n) :
    ∃ c, ctlPair p k = some c := by
  rw [Profile.n_eq] at hle
  rw [ctlPair_of_pos p hpos]
  exact ⟨_, List.getElem?_eq_getElem (by omega)⟩

/-- R102: at a position of R20 the sequencer is not held up. -/
theorem exists_seqstep_eq_next {s : State} (hc : s.cfg.wf = true) (hinv : s.SeqInv)
    (hs : s.block.seq ≠ .idle) : ∃ t, seqstep s = some (.next t) := by
  cases hq : s.block.seq with
  | idle => exact absurd hq hs
  | pin => exact ⟨_, seqstep_pin hq⟩
  | reg k =>
    simp only [State.SeqInv, hq] at hinv
    obtain ⟨hpos, hle, _⟩ := hinv
    obtain ⟨c, hp⟩ := exists_ctlPair hpos hle
    exact ⟨_, (seqstep_reg hq).trans (congrArg some (microReg_of_ctlPair hc hp))⟩
  | ret => exact ⟨_, seqstep_ret hq⟩

theorem seqstep_ne_refused {s : State} (hc : s.cfg.wf = true) (hinv : s.SeqInv) (r : Refusal) :
    seqstep s ≠ some (.refused r) := by
  by_cases hs : s.block.seq = .idle
  · simp [seqstep_idle hs]
  · obtain ⟨t, ht⟩ := exists_seqstep_eq_next hc hinv hs
    simp [ht]

end Machine

open Machine

/-- Settles O37: after the `irqack` the flag is 0, and no label but `ovf` raises it. -/
theorem acknowledgeClearsThePendingFlag : Obligations.AcknowledgeClearsThePendingFlag := by
  intro s hs
  rw [transition_of_admitted hs, ← Block.irq_iff]
  refine ⟨fun hirq => ?_, fun hirq => ?_, fun t u ls ht ho hu => ?_⟩
  · rw [labelStep, irqackStep_of_irq hirq]
    rfl
  · rw [labelStep, irqackStep_of_not_irq hirq]
    rfl
  · rw [← transition_of_admitted hs] at ht
    obtain ⟨_, rfl⟩ := transition_irqack_eq_next ht
    exact Block.irq_of_not_pending (runLabels_keeps_not_pending ho hu rfl)

/-- Settles O39: a raised flag is raised again in vain, and each `irqack` takes down a flag that an
`ovf` has raised. -/
theorem overflowsMergeAndBoundAcknowledges : Obligations.OverflowsMergeAndBoundAcknowledges := by
  refine ⟨fun s t h => ?_, fun ls s t hs h => ?_⟩
  · obtain ⟨_, rfl⟩ := transition_ovf_eq_next h
    rw [transition_ovf_raiseOverflow, h]
  · have hcount := runLabels_ack_le_ovf h
    rw [hs, Bool.toNat_false] at hcount
    omega

/-- Settles O42: `duty` has no writer but WRITE and reset, and a WRITE replaces the whole byte; an
`ovf` that finds the flag raised writes the bit it finds. -/
theorem missedDeadlinesHarmNothing : Obligations.MissedDeadlinesHarmNothing := by
  refine ⟨fun ls s t hls h => ?_, fun p q s t h => ?_, fun s t hs h => ?_⟩
  · refine runLabels_keeps (P := fun u => u.block.duty = s.block.duty) ?_ h rfl
    intro l hl u v huv hu
    obtain ⟨hwrite, hreset⟩ := hls l hl
    exact (transition_duty huv hwrite hreset).trans hu
  · rw [exec_write] at h
    obtain ⟨_, rfl⟩ := writeDuty_cases h
    rw [exec_write, exec_write, writeDuty_setDuty]
  · obtain ⟨_, rfl⟩ := transition_ovf_eq_next h
    rw [Block.raiseOverflow_of_pending hs, State.setBlock_block_self]

/-- Settles O52, label by label: the invariant keeps the sequencer at a position of R20, so only a
command word can be refused. -/
theorem onlyReservedWordsAndNestedBeginsAreRefused :
    Obligations.OnlyReservedWordsAndNestedBeginsAreRefused := by
  refine ⟨fun s r => (nomatch r), fun l s r hinv hs h => ?_⟩
  rw [transition_of_admitted hs] at h
  obtain ⟨hc, hw, _⟩ := hs
  cases l with
  | cmd w =>
    obtain ⟨why, hd, hr⟩ | ⟨rfl, hseq, hr⟩ := cmdStep_eq_refused hw (Option.some.inj h)
    · exact .inl ⟨w, why, rfl, hd, hr⟩
    · exact .inr ⟨rfl, hseq, hr⟩
  | seqstep => exact absurd h (seqstep_ne_refused hc hinv.seqInv r)
  | ovf => simp [labelStep] at h
  | irqack => simp [labelStep] at h
  | reset => simp [labelStep] at h

end Sys2Proof
end

section
/-! The reserved command words by their number (R77), and the encoding statements that follow from
the round trip between operations and words (R74 to R76). -/

namespace Sys2Proof

theorem decode_eq_unusedOp_iff (w : CmdWord) :
    decode w = .error .unusedOp ↔
      opField w ≠ 0x1#4 ∧ opField w ≠ 0x2#4 ∧ opField w ≠ 0x3#4 ∧ opField w ≠ 0x4#4 := by
  unfold decode
  split_ifs <;> simp [*]

theorem decode_eq_beginWithPayload_iff (w : CmdWord) :
    decode w = .error .beginWithPayload ↔ opField w = 0x1#4 ∧ payload w ≠ 0x0000#16 := by
  unfold decode
  split_ifs <;> simp [*]

theorem decode_eq_writeS8HighByte_iff (w : CmdWord) :
    decode w = .error .writeS8HighByte ↔ opField w = 0x2#4 ∧ payloadHigh w ≠ 0x00#8 := by
  unfold decode
  split_ifs <;> simp [*]

/-- Settles O2: the round trip holds for every operation, well formed or not. -/
theorem decodeOfEncode : Obligations.DecodeOfEncode :=
  fun i _ => decode_encode i

/-- Settles O3: a word is the concatenation of its fields, and decoding tests every field it does
not keep as the operand. -/
theorem encodeOfDecode : Obligations.EncodeOfDecode :=
  fun _ _ h => encode_eq_of_decode_eq_ok h

/-- Settles O6: each class is a condition on fields, and the fields are quotients and remainders of
the word's number. -/
theorem reservedWordsAreNamedByTheirClass : Obligations.ReservedWordsAreNamedByTheirClass := by
  intro w
  have hw := w.isLt
  refine ⟨?_, ?_, ?_⟩
  · simp only [decode_eq_unusedOp_iff, ne_eq, opField_eq_iff, BitVec.toNat_ofNat]
    omega
  · simp only [decode_eq_beginWithPayload_iff, ne_eq, opField_eq_iff, payload_eq_iff,
      BitVec.toNat_ofNat]
    omega
  · simp only [decode_eq_writeS8HighByte_iff, ne_eq, opField_eq_iff, payloadHigh_eq_iff,
      BitVec.toNat_ofNat]
    omega

/-- Settles O1: the decoder run on nine closed words. -/
theorem workedCommandWordsDecode : Obligations.WorkedCommandWordsDecode := by
  unfold Obligations.WorkedCommandWordsDecode
  decide

end Sys2Proof
end

section
/-! The converter's bit-level forms (R114) against its value-level rules, by the ranges of those
rules, and what the ranges say of monotonicity (R122). -/

namespace Sys2Proof

namespace Machine

/-- Inverting the sign bit adds 128 modulo 256. -/
theorem fromSigned8Bits_eq_add (b : Byte) : fromSigned8Bits b = b + 0x80#8 := by
  revert b
  decide

theorem operandS8_eq_ite (b : Byte) :
    operandS8 b = if b.toNat < 128 then (b.toNat : Int) else b.toNat - 256 := sN_eq_ite b

theorem operandS16_eq_ite (b : Half) :
    operandS16 b = if b.toNat < 32768 then (b.toNat : Int) else b.toNat - 65536 := sN_eq_ite b

/-- R114, for `Signed8`. -/
theorem uN_fromSigned8Bits (b : Byte) : uN (fromSigned8Bits b) = fromSigned8 (operandS8 b) := by
  have hb := b.isLt
  rw [fromSigned8Bits_eq_add, fromSigned8, operandS8_eq_ite, uN, BitVec.toNat_add,
    BitVec.toNat_ofNat]
  split <;> omega

/-- A byte taken out of a sample's pattern, by the pattern's number. -/
theorem extractByte_eq_iff (b : Half) (k : Nat) (c : Byte) :
    b.extractLsb' k 8 = c ↔ b.toNat / 2 ^ k % 2 ^ 8 = c.toNat := by
  rw [← BitVec.toNat_inj, BitVec.extractLsb'_toNat, Nat.shiftRight_eq_div_pow]

theorem lowByte_toNat (b : Half) : (b.extractLsb' 0 8).toNat = b.toNat % 256 := by
  simp

/-- R114, for `Unsigned16`: the high byte is zero exactly in the range that is not cut off. -/
theorem uN_fromUnsigned16Bits (b : Half) :
    uN (fromUnsigned16Bits b) = fromUnsigned16 (operandU16 b) := by
  have hb := b.isLt
  simp only [fromUnsigned16Bits, ne_eq, extractByte_eq_iff, BitVec.toNat_ofNat, operandU16, uN]
  split
  · rw [fromUnsigned16_of_ge (by omega)]
    rfl
  · rw [fromUnsigned16_of_le (by omega), lowByte_toNat]
    omega

theorem signBit_iff (b : Half) : b.getLsbD 15 = true ↔ 32768 ≤ b.toNat := by
  rw [← BitVec.msb_eq_getLsbD_last b, BitVec.msb_eq_decide, decide_eq_true_iff]

/-- R114, for `Signed16`: `b[15:7]` say in which range of R113 the value is, and inside [-128,127]
the low byte is the sample as a `Signed8`. -/
theorem uN_fromSigned16Bits (b : Half) :
    uN (fromSigned16Bits b) = fromSigned16 (operandS16 b) := by
  have hb := b.isLt
  simp only [fromSigned16Bits, ne_eq, ← Bool.not_eq_true, signBit_iff, extractByte_eq_iff,
    BitVec.toNat_ofNat]
  split
  · have hval : 127 ≤ operandS16 b := by rw [operandS16_eq_ite]; split <;> omega
    rw [fromSigned16_of_ge hval]
    rfl
  · split
    · have hval : operandS16 b ≤ -128 := by rw [operandS16_eq_ite]; split <;> omega
      rw [fromSigned16_of_le hval]
      rfl
    · have hval : operandS16 b = operandS8 (b.extractLsb' 0 8) := by
        rw [operandS16_eq_ite, operandS8_eq_ite, lowByte_toNat]
        split <;> split <;> omega
      rw [hval, fromSigned16_of_mem_Icc (operandS8_mem_Icc _)]
      exact uN_fromSigned8Bits _

theorem clamp_mono {s t : Int} (lo hi : Int) (h : s ≤ t) : clamp s lo hi ≤ clamp t lo hi :=
  max_le_max_left lo (min_le_min_right hi h)

theorem fromSigned8_strictMono : StrictMono fromSigned8 := fun _ _ h => Int.add_lt_add_right h 128

theorem fromSigned16_mono : Monotone fromSigned16 := fun _ _ h =>
  fromSigned8_strictMono.monotone (clamp_mono (-128) 127 h)

theorem fromUnsigned16_mono : Monotone fromUnsigned16 := fun _ _ h => min_le_min_right 255 h

end Machine

open Machine

/-- Settles O8, one bit-level form at a time. -/
theorem bitFormsComputeTheConversions : Obligations.BitFormsComputeTheConversions :=
  ⟨uN_fromSigned8Bits, uN_fromUnsigned16Bits, uN_fromSigned16Bits⟩

/-- Settles O9: the range of a duty value is that of the duty register. -/
theorem conversionsStayInTheDutyRange : Obligations.ConversionsStayInTheDutyRange := by
  intro p
  obtain ⟨hlo, hhi⟩ := dutyOf_mem_Icc p
  exact ⟨hlo, hhi, uN_bitsN_dutyOf p⟩

/-- Settles O10: the bias is strictly increasing, the clamp and the cut-off are not decreasing, and
where neither changes its argument the conversion is the bias or the identity. -/
theorem conversionsAreMonotone : Obligations.ConversionsAreMonotone := by
  refine ⟨?_, ?_, ?_, ?_, ?_, ?_, ?_⟩
  · intro s t hs hst ht
    have h8 : fromSigned8 s < fromSigned8 t := fromSigned8_strictMono hst
    rw [fromSigned16_of_mem_Icc ⟨hs, by omega⟩, fromSigned16_of_mem_Icc ⟨by omega, ht⟩]
    exact ⟨h8, h8⟩
  · intro s _ h
    exact fromSigned16_of_le h
  · intro s h _
    exact fromSigned16_of_ge h
  · intro s t _ h _
    exact fromSigned16_mono h
  · intro s t _ hst ht
    rw [fromUnsigned16_of_le (by omega), fromUnsigned16_of_le ht]
    exact hst
  · intro s h _
    exact fromUnsigned16_of_ge h
  · intro s t _ h _
    exact fromUnsigned16_mono h

end Sys2Proof
end

section
/-! The register space and the frames of its writers (20_memory.md): what a control register reads
after a `RegWrite` (R50, R55), and what a WRITE, BEGIN and a micro-step Reg(k) leave as it was. -/

namespace Sys2Proof

namespace Machine

theorem exec_of_isWrite_second {i : Instr} {s : State} (hi : i.isWrite = true)
    (hw : s.secondWriter = true) : exec i s = .refused .secondWriter := by
  obtain ⟨p, rfl⟩ := exists_sample_of_isWrite hi
  rw [exec_write, writeDuty_second _ hw]

theorem exec_isWrite_cases {i : Instr} {s t : State} (hi : i.isWrite = true)
    (h : exec i s = .next t) : ∃ v, t = s.setBlock (s.block.setDuty v) := by
  obtain ⟨p, rfl⟩ := exists_sample_of_isWrite hi
  rw [exec_write] at h
  exact ⟨_, (writeDuty_cases h).2⟩

theorem regWrite_of_not_mem {a : Addr} (v : Byte) {s : State} (hd : a ≠ s.profile.dutyAddr)
    (ha : a ∉ s.profile.ctlAddrs) : regWrite a v s = .refused (.notARegister a) := by
  simp [regWrite, hd, ha]

theorem State.regSpace_dutyAddr (s : State) :
    s.regSpace s.profile.dutyAddr = some s.block.duty := if_pos rfl

theorem State.regSpace_of_ne {s : State} {a : Addr} (h : a ≠ s.profile.dutyAddr) :
    s.regSpace a = s.block.ctl.read a := if_neg h

/-- What stands outside the duty register is in the control registers alone. -/
theorem State.regSpace_setBlock_of_ne {s : State} {b : Block} {a : Addr}
    (h : a ≠ s.profile.dutyAddr) : (s.setBlock b).regSpace a = b.ctl.read a :=
  State.regSpace_of_ne (s := s.setBlock b) h

/-- The register space sees `duty` and `ctl` and nothing else of the block. -/
theorem State.regSpace_congr {s : State} {b : Block} (hd : b.duty = s.block.duty)
    (hc : b.ctl = s.block.ctl) (a : Addr) : (s.setBlock b).regSpace a = s.regSpace a := by
  simp only [State.regSpace, State.setBlock_profile, State.setBlock_block, hd, hc]

@[simp] theorem Block.afterReg_ctl (p : Profile) (k : Nat) (c : Host.Cell) (b : Block) :
    (b.afterReg p k c).ctl = b.ctl.write c.1 c.2 := by
  rw [Block.afterReg_eq]

/-- R50, R93: in an accepted configuration micro-step Reg(k) changes the byte at its pair's
address. -/
theorem regSpace_afterReg {s : State} (hc : s.cfg.wf = true) {c : Host.Cell}
    (hmem : c ∈ s.profile.ctlSeq) (k : Nat) (x : Addr) :
    (s.setBlock (s.block.afterReg s.profile k c)).regSpace x =
      if x = c.1 then some c.2 else s.regSpace x := by
  have hne : c.1 ≠ s.profile.dutyAddr := ctl_ne_dutyAddr hc hmem
  by_cases hx : x = s.profile.dutyAddr
  · subst hx
    rw [if_neg hne.symm, State.regSpace_dutyAddr, ← Block.afterReg_duty s.profile k c s.block]
    exact State.regSpace_dutyAddr _
  · rw [State.regSpace_setBlock_of_ne hx, State.regSpace_of_ne hx, Block.afterReg_ctl,
      Memory.read_write]

end Machine

open Machine

/-- Settles O15: the byte is the sample's duty value, chosen before the state. -/
theorem writesHaveOneEffectInEveryState : Obligations.WritesHaveOneEffectInEveryState := by
  intro i hi
  obtain ⟨p, rfl⟩ := exists_sample_of_isWrite hi
  exact ⟨bitsN 8 (dutyOf p), fun s hs => (exec_write p s).trans (writeDuty_single _ hs)⟩

/-- Settles O16: a WRITE replaces `duty` alone, and the control registers hold every other
address. -/
theorem writeFrame : Obligations.WriteFrame := by
  intro i s t hi h
  obtain ⟨v, rfl⟩ := exec_isWrite_cases hi h
  refine ⟨?_, rfl, rfl, rfl, rfl, rfl, rfl, rfl, rfl, rfl, rfl, rfl, rfl, rfl⟩
  rintro a rfl
  refine ⟨State.regSpace_dutyAddr _, fun x hx => ?_⟩
  rw [State.regSpace_setBlock_of_ne hx, State.regSpace_of_ne hx, Block.setDuty_ctl]

/-- Settles O17: an accepted BEGIN writes `seq`, which the register space does not show. -/
theorem beginFrame : Obligations.BeginFrame := by
  intro s t h
  obtain ⟨_, rfl⟩ := execBegin_cases h
  exact ⟨State.regSpace_congr rfl rfl, rfl, rfl, rfl, rfl, rfl, rfl, rfl, rfl, rfl, rfl, rfl, rfl,
    rfl⟩

/-- Settles O21, one kind of address at a time. -/
theorem regWriteReplacesOneRegister : Obligations.RegWriteReplacesOneRegister := by
  intro a v s
  refine ⟨?_, fun hd ha => ?_, fun hd ha => regWrite_of_not_mem v hd ha⟩
  · rintro rfl
    exact regWrite_duty v s
  · exact ⟨s.block.ctl.write a v, regWrite_ctl v hd ha, Memory.read_write_same _ _ _,
      fun x hx => Memory.read_write_other _ v hx⟩

/-- Settles O22: in canonical form a write of the held byte gives the same list. -/
theorem regWriteOfTheHeldValueChangesNothing :
    Obligations.RegWriteOfTheHeldValueChangesNothing := by
  intro a v s hwf ha hheld
  by_cases hd : a = s.profile.dutyAddr
  · subst hd
    obtain rfl : s.block.duty = v := Option.some.inj ((State.regSpace_dutyAddr s).symm.trans hheld)
    exact regWrite_duty _ s
  · rw [State.regSpace_of_ne hd] at hheld
    rw [regWrite_ctl v hd (ha.resolve_left hd), Memory.write_held hwf hheld]
    rfl

/-- Settles O25: the micro-step's effect on the block is known field by field, and its pair is at a
control register's address. -/
theorem regMicroStepFrame : Obligations.RegMicroStepFrame := by
  intro s t k c hc hs hk hpair h
  have hp : ctlPair s.profile k = some c := (ctlPair_of_pos _ hk).trans hpair
  rw [seqstep_reg hs, microReg_of_ctlPair hc hp] at h
  cases h
  have hread := regSpace_afterReg hc (ctlPair_mem hp).1 k
  refine ⟨?_, fun x hx => ?_, ?_⟩
  · rw [hread, if_pos rfl]
  · rw [hread, if_neg hx]
  · simp

end Sys2Proof
end

section
/-! One step of the machine (00_scope.md R10, R11, R30 and 10_state.md R32): which offer it takes,
what it refuses whatever the offer, and what it leaves beside the block. -/

namespace Sys2Proof

theorem distinctAddrs_iff_nodup (l : List Addr) : distinctAddrs l = true ↔ l.Nodup := by
  induction l with
  | nil => simp [distinctAddrs]
  | cons a l ih => simp [distinctAddrs, ih]

/-- R32, as the rule says it. -/
theorem Profile.wf_iff (p : Profile) :
    p.wf = true ↔ p.waveSeq ≠ [] ∧ p.irqSeq ≠ [] ∧ (p.ctlSeq.map Prod.fst).Nodup ∧
      p.dutyAddr ∉ p.ctlSeq.map Prod.fst := by
  simp only [Profile.wf, Bool.and_eq_true, Bool.not_eq_true', List.isEmpty_eq_false_iff,
    distinctAddrs_iff_nodup, List.contains_eq_mem, decide_eq_false_iff_not, and_assoc]
  rfl

/-- R7: the target sets have no common element. -/
theorem Config.targetsDisjoint_iff (c : Config) :
    c.targetsDisjoint = true ↔ ∀ t ∈ c.targetsA, t ∉ c.targetsB := by
  simp [Config.targetsDisjoint]

theorem Config.wf_iff (c : Config) :
    c.wf = true ↔ c.active.wf = true ∧ c.targetsDisjoint = true := by
  rw [Config.wf, Bool.and_eq_true]

namespace Machine

/-! ### The offer -/

theorem step_eq_perform {s : State} {l : StepLabel} {rest : List StepLabel}
    (h : s.sched = l :: rest) : step s = perform l (s.setSched rest) := by
  simp [step, offer, takeOffer, h]

theorem State.Admitted.setSched {s : State} (h : s.Admitted) (l : List StepLabel) :
    (s.setSched l).Admitted := h

theorem perform_of_transition {l : StepLabel} {s : State} {o : Host.Outcome State Fault Refusal}
    (h : transition l s = some o) : perform l s = o := by
  simp [perform, h]

theorem perform_of_none {l : StepLabel} {s : State} (h : transition l s = none) :
    perform l s = .next s := by
  simp [perform, h]

theorem perform_eq_refused {l : StepLabel} {s : State} {r : Refusal}
    (h : perform l s = .refused r) : transition l s = some (.refused r) := by
  unfold perform at h
  split at h
  · cases h
  · rw [← h]
    assumption

/-! ### What is refused whatever the label -/

theorem perform_of_admission {l : StepLabel} {s : State} {r : Refusal}
    (h : admission l s = some r) : perform l s = .refused r :=
  perform_of_transition (by simp [transition, h])

theorem admission_of_not_wf (l : StepLabel) {s : State} (h : s.cfg.wf = false) :
    admission l s = some .configNotAccepted := by
  simp [admission, h]

theorem admission_of_secondWriter (l : StepLabel) {s : State} (hc : s.cfg.wf = true)
    (hw : s.secondWriter = true) : admission l s = some .secondWriter := by
  simp [admission, hc, hw]

theorem admission_ne_configNotAccepted (l : StepLabel) {s : State} (hc : s.cfg.wf = true) :
    admission l s ≠ some .configNotAccepted := by
  rw [admission, if_neg (by simp [hc])]
  split_ifs <;> nofun

theorem seqstep_eq_refused {s : State} {r : Refusal} (hc : s.cfg.wf = true)
    (h : seqstep s = some (.refused r)) : ∃ k, r = .seqOutOfRange k := by
  cases hs : s.block.seq with
  | idle => rw [seqstep_idle hs] at h; cases h
  | pin => rw [seqstep_pin hs] at h; cases h
  | reg k =>
    rw [seqstep_reg hs] at h
    cases hp : ctlPair s.profile k with
    | none => rw [microReg_of_ctlPair_none hp] at h; cases h; exact ⟨k, rfl⟩
    | some c => rw [microReg_of_ctlPair hc hp] at h; cases h
  | ret => rw [seqstep_ret hs] at h; cases h

/-- R32: an accepted configuration is not refused for what it is. -/
theorem transition_ne_configNotAccepted (l : StepLabel) {s : State} (hc : s.cfg.wf = true) :
    transition l s ≠ some (.refused .configNotAccepted) := by
  intro h
  cases ha : admission l s with
  | some r =>
    simp only [transition, ha] at h
    cases h
    exact admission_ne_configNotAccepted l hc ha
  | none =>
    obtain ⟨_, hw, _⟩ := admission_none ha
    simp only [transition, ha] at h
    cases l with
    | cmd w =>
      obtain ⟨why, _, hr⟩ | ⟨_, _, hr⟩ := cmdStep_eq_refused hw (Option.some.inj h) <;> cases hr
    | seqstep =>
      obtain ⟨k, hr⟩ := seqstep_eq_refused hc h
      cases hr
    | ovf => simp [labelStep] at h
    | irqack => simp [labelStep] at h
    | reset => simp [labelStep] at h

/-! ### What a step leaves beside the block -/

theorem step_frame {s t : State} (h : step s = .next t) :
    t.cfg = s.cfg ∧ t.secondWriter = s.secondWriter ∧ t.refusalMark = s.refusalMark := by
  obtain ⟨_, rfl⟩ | htr := perform_cases h
  · simp
  · obtain ⟨hcfg, hwriter, hmark, _⟩ := transition_frame htr
    simp [hcfg, hwriter, hmark]

theorem advance_of_next {s t : State} (h : step s = .next t) : advance s = t := by
  simp [advance, h]

theorem advance_of_refused {s : State} {r : Refusal} (h : step s = .refused r) :
    advance s = (takeOffer s).setMark := by
  simp [advance, h]

theorem advance_refusalMark {s : State} (h : s.refusalMark = true) :
    (advance s).refusalMark = true := by
  cases hs : step s with
  | next t =>
    obtain ⟨_, _, hmark⟩ := step_frame hs
    rw [advance_of_next hs, hmark, h]
  | fault r => cases r
  | refused r => rw [advance_of_refused hs, State.setMark_refusalMark]

theorem advances_refusalMark (k : Nat) {s : State} (h : s.refusalMark = true) :
    (advances k s).refusalMark = true := by
  induction k generalizing s with
  | zero => exact h
  | succ k ih => exact ih (advance_refusalMark h)

end Machine

open Machine

/-- Settles O19: the declaration is refused by the WRITE itself, and by the admission of any
label. -/
theorem secondWriterIsRefused : Obligations.SecondWriterIsRefused := by
  intro s hw
  refine ⟨fun i hi => exec_of_isWrite_second hi hw, fun hc => ?_⟩
  exact perform_of_admission (admission_of_secondWriter _ (by simpa using hc) (by simpa using hw))

/-- Settles O20: the step is the command's, which is refused by the word's class, and a refused
step sets the mark. -/
theorem reservedWordIsRefused : Obligations.ReservedWordIsRefused := by
  intro s w rest why hs hsched hd
  have htr : transition (.cmd w) (s.setSched rest) = some (.refused (.reservedWord why)) := by
    rw [transition_of_admitted (hs.setSched rest), labelStep, cmdStep, hd]
  have hstep : step s = .refused (.reservedWord why) :=
    (step_eq_perform hsched).trans (perform_of_transition htr)
  exact ⟨hstep, by rw [advance_of_refused hstep, State.setMark_refusalMark]⟩

/-- Settles O54: R32's conditions are those of `Profile.wf`, which every step checks first. -/
theorem illFormedProfilesAreRefused : Obligations.IllFormedProfilesAreRefused := by
  intro s
  refine ⟨fun h => ?_, fun hwave hirq hnodup hduty htargets h => ?_⟩
  · have hc : s.cfg.wf = false := by
      rw [← Bool.not_eq_true, Config.wf_iff, Profile.wf_iff]
      exact fun hwf => h hwf.1
    exact perform_of_admission (admission_of_not_wf _ (by simpa using hc))
  · have hc : s.cfg.wf = true := by
      rw [Config.wf_iff, Profile.wf_iff, Config.targetsDisjoint_iff]
      exact ⟨⟨hwave, hirq, hnodup, hduty⟩, htargets⟩
    exact transition_ne_configNotAccepted _ (by simpa using hc) (perform_eq_refused h)

/-- Settles O55: neither a transition nor the passing over of an offer writes them. -/
theorem noStepChangesTheConfiguration : Obligations.NoStepChangesTheConfiguration :=
  fun _ _ h => step_frame h

/-- Settles O56: `advance` sets the mark where a step is refused, and no step clears it. -/
theorem refusalMarkIsKept : Obligations.RefusalMarkIsKept := by
  refine ⟨fun s r h => ?_, fun s k h => advances_refusalMark k h⟩
  rw [advance_of_refused h, State.setMark_refusalMark]

/-- Settles O57: the command word offered is the transition performed. -/
theorem stepRunsTheDecodedOperation : Obligations.StepRunsTheDecodedOperation := by
  intro s w rest i hs hsched hd
  have htr : transition (.cmd w) (s.setSched rest) = some (exec i (s.setSched rest)) :=
    transition_cmd_of_decode_eq_ok (hs.setSched rest) hd
  exact (step_eq_perform hsched).trans (perform_of_transition htr)

/-- Settles O58: a step performs the oldest offer. -/
theorem stepTakesTheOldestOffer : Obligations.StepTakesTheOldestOffer := by
  intro s l rest hsched
  rw [step_eq_perform hsched]
  exact ⟨fun o => perform_of_transition, perform_of_none⟩

/-- Settles O53: disjoint sets make the order of the two tests immaterial. -/
theorem resolveSelectsTheVariant : Obligations.ResolveSelectsTheVariant := by
  intro c t hdisj
  rw [Config.targetsDisjoint_iff] at hdisj
  refine ⟨fun hA => ?_, fun hB => ?_, fun hA hB => ?_⟩
  · have hv : c.variantOf t = .variantA := by simp [Config.variantOf, hA]
    exact ⟨by rw [Config.resolve, hv], by rw [Config.resolve, hv]; rfl⟩
  · have hA : t ∉ c.targetsA := fun hA => hdisj t hA hB
    have hv : c.variantOf t = .variantB := by simp [Config.variantOf, hA, hB]
    exact ⟨by rw [Config.resolve, hv], by rw [Config.resolve, hv]; rfl⟩
  · have hv : c.variantOf t = .variantDefault := by simp [Config.variantOf, hA, hB]
    exact ⟨by rw [Config.resolve, hv], by rw [Config.resolve, hv]; rfl⟩

end Sys2Proof
end

section
/-! The overflow flag, the reset and the outputs, label by label (R25, R132, R160, R37), and that no
step reads `mode`, `duty` or `ctl` (R54). -/

namespace Sys2Proof

namespace Machine

theorem Block.timerRuns_iff (b : Block) :
    b.timerRuns = true ↔ b.wave ≠ none ∧ b.prescale1 = true := by
  rw [Block.timerRuns, Bool.and_eq_true, Option.isSome_iff_ne_none]

theorem ovfStep_of_timerRuns {s : State} (h : s.block.timerRuns = true) :
    ovfStep s = some (s.setBlock s.block.raiseOverflow) := if_pos h

theorem ovfStep_of_not_timerRuns {s : State} (h : ¬ s.block.timerRuns = true) :
    ovfStep s = none := if_neg h

/-- R160: an accepted machine with one writer is reset, whether or not its run is marked. -/
theorem transition_reset {s : State} (hc : s.cfg.wf = true) (hw : s.secondWriter = false) :
    transition .reset s = some (.next (powerReset s)) := by
  have ha : admission .reset s = none := by simp [admission, hc, hw]
  rw [transition, ha]
  rfl

/-! ### The pin -/

theorem Block.pwmOut_undriven {b : Block} (h : b.pinDrive = false) : b.pwmOut = .undriven := by
  simp [Block.pwmOut, h]

theorem Block.pwmOut_drivenUnspecified {b : Block} (h : b.pinDrive = true) (hw : b.wave = none) :
    b.pwmOut = .drivenUnspecified := by
  simp [Block.pwmOut, h, hw]

theorem Block.pwmOut_pwm {b : Block} {m : PwmMode} (h : b.pinDrive = true) (hw : b.wave = some m) :
    b.pwmOut = .pwm m b.duty.toNat := by
  simp [Block.pwmOut, h, hw]

/-! ### What no step reads, all at once -/

/-- The block with `mode`, `duty` and `ctl` blotted out, as `State.hideUnread` does it. -/
def Block.hideUnread (b : Block) : Block := ((b.setMode .unconfigured).setDuty 0).setCtl []

theorem State.hideUnread_eq_onBlock : State.hideUnread = State.onBlock Block.hideUnread := rfl

theorem unread_hideUnread : Unread Block.hideUnread where
  seq _ := rfl
  timerRuns _ := rfl
  irq _ := rfl
  idem _ := rfl
  setMode _ _ := rfl
  setDuty _ _ := rfl
  setSeq _ _ := rfl
  writeCtl _ _ _ := rfl
  setWaveform _ _ := rfl
  enableOverflow _ := rfl
  drivePin _ := rfl
  raiseOverflow _ := rfl
  clearOverflow _ := rfl

end Machine

open Machine

/-- Settles O38, label by label. -/
theorem pendingFlagIsWrittenByOvfAckAndResetOnly :
    Obligations.PendingFlagIsWrittenByOvfAckAndResetOnly := by
  intro l s t h
  obtain ⟨hc, _, _, ⟨w, i, rfl, _, he⟩ | ⟨rfl, hq⟩ | ⟨rfl, _, rfl⟩ | ⟨rfl, _, rfl⟩ | ⟨rfl, rfl⟩⟩ :=
    transition_cases h
  · exact exec_ovfPending he
  · exact seqstep_ovfPending hc hq
  · rfl
  · rfl
  · rfl

/-- Settles O36: R132's condition is that the timer runs. -/
theorem overflowSetsThePendingFlag : Obligations.OverflowSetsThePendingFlag := by
  intro s hs
  rw [transition_of_admitted hs, labelStep, ← Block.timerRuns_iff]
  refine ⟨fun h => ?_, fun h => ?_⟩
  · rw [ovfStep_of_timerRuns h]
    rfl
  · rw [ovfStep_of_not_timerRuns h]
    rfl

/-- Settles O41: the pin is a function of `pinDrive`, `wave` and `duty`, and a WRITE.U16 replaces
`duty` alone. -/
theorem outputsFollowTheState : Obligations.OutputsFollowTheState := by
  refine ⟨fun s => ?_, fun b => ⟨?_, ?_, ?_⟩, fun b s t m hpin hwave h => ?_⟩
  · simp only [State.irqLine, Block.irq_iff]
  · exact Block.pwmOut_undriven
  · exact Block.pwmOut_drivenUnspecified
  · exact fun m => Block.pwmOut_pwm
  · obtain ⟨hw, _⟩ := writeDuty_cases h
    obtain ⟨d, hexec, hd⟩ := writeU16SetsTheDuty.2 b s hw
    cases hexec.symm.trans h
    rw [← hd]
    exact Block.pwmOut_pwm hpin hwave

/-- Settles O44: the reset step is `powerReset`. -/
theorem resetStepClearsTheBlock : Obligations.ResetStepClearsTheBlock := fun s hc hw =>
  ⟨powerReset s, transition_reset hc hw, rfl, rfl, rfl, rfl, rfl, rfl, rfl, rfl, rfl, rfl, rfl, rfl,
    rfl, rfl, rfl⟩

/-- Settles O51: what `hideUnread` blots out decides no step and is copied into no other field. -/
theorem noStepReadsModeDutyOrControlRegisters :
    Obligations.NoStepReadsModeDutyOrControlRegisters := by
  intro l s u h
  rw [State.hideUnread_eq_onBlock] at h ⊢
  exact transition_congr unread_hideUnread l h

end Sys2Proof
end

section
/-! The invariant (10_state.md R35): it speaks of the configuration and the block alone, it holds
after a reset, and every transition keeps it. -/

namespace Sys2Proof

/-- R32: a register address stands in one pair of `CTL_SEQ` only. -/
theorem Profile.eq_of_mem_ctlSeq {p : Profile} (h : p.wf = true) {c d : Host.Cell}
    (hc : c ∈ p.ctlSeq) (hd : d ∈ p.ctlSeq) (hcd : c.1 = d.1) : c = d := by
  obtain ⟨_, _, hnodup, _⟩ := p.wf_iff.mp h
  exact List.inj_on_of_nodup_map hnodup hc hd hcd

/-- R32: the wave group is not empty. -/
theorem Profile.nW_pos {p : Profile} (h : p.wf = true) : 0 < p.nW :=
  List.length_pos_of_ne_nil (p.wf_iff.mp h).1

namespace Machine

theorem State.Inv.congr {s t : State} (h : s.Inv) (hcfg : t.cfg = s.cfg)
    (hblock : t.block = s.block) : t.Inv := by
  obtain ⟨c, b, m, w, l, k⟩ := t
  obtain rfl : c = s.cfg := hcfg
  obtain rfl : b = s.block := hblock
  exact ⟨h.cfgWf, h.ctlWf, h.ctlOnly, h.wavePrescale, h.waveMode, h.ovfieDone, h.runningDone,
    h.pendingWave, h.irqEnabled, h.seqInv⟩

theorem State.profile_wf {s : State} (h : s.cfg.wf = true) : s.profile.wf = true :=
  Config.active_wf h

theorem ovfie_of_irq {b : Block} (h : b.irq = true) : b.ovfie = true := (b.irq_iff.mp h).2

/-- The invariant holds after any reset of an accepted configuration (R36). -/
theorem inv_of_afterReset {s : State} {d : Byte} (hc : s.cfg.wf = true)
    (hb : s.block = Block.afterReset d) : s.Inv where
  cfgWf := hc
  ctlWf := by rw [hb]; rfl
  ctlOnly a v h := by simp [hb] at h
  wavePrescale := by simp [hb]
  waveMode m h := by simp [hb] at h
  ovfieDone h := by simp [hb] at h
  runningDone h := by simp [hb] at h
  pendingWave h := by simp [hb] at h
  irqEnabled := ovfie_of_irq
  seqInv := by simp [State.SeqInv, hb]

/-! ### The labels that write one field -/

theorem inv_setDuty {s : State} (h : s.Inv) (v : Byte) : (s.setBlock (s.block.setDuty v)).Inv :=
  ⟨h.cfgWf, h.ctlWf, h.ctlOnly, h.wavePrescale, h.waveMode, h.ovfieDone, h.runningDone,
    h.pendingWave, h.irqEnabled, h.seqInv⟩

theorem inv_setSeq {s : State} (h : s.Inv) {q : SeqPos}
    (hq : (s.setBlock (s.block.setSeq q)).SeqInv) : (s.setBlock (s.block.setSeq q)).Inv :=
  ⟨h.cfgWf, h.ctlWf, h.ctlOnly, h.wavePrescale, h.waveMode, h.ovfieDone, h.runningDone,
    h.pendingWave, h.irqEnabled, hq⟩

/-- R132: only a timer with a waveform overflows. -/
theorem inv_raiseOverflow {s : State} (h : s.Inv) (hr : s.block.timerRuns = true) :
    (s.setBlock s.block.raiseOverflow).Inv :=
  ⟨h.cfgWf, h.ctlWf, h.ctlOnly, h.wavePrescale, h.waveMode, h.ovfieDone, h.runningDone,
    fun _ => (s.block.timerRuns_iff.mp hr).1, ovfie_of_irq, h.seqInv⟩

theorem inv_takeInterrupt {s : State} (h : s.Inv) : (takeInterrupt s).Inv :=
  ⟨h.cfgWf, h.ctlWf, h.ctlOnly, h.wavePrescale, h.waveMode, h.ovfieDone, h.runningDone,
    fun hp => (nomatch hp), ovfie_of_irq, h.seqInv⟩

theorem inv_exec {i : Instr} {s t : State} (h : s.Inv) (he : exec i s = .next t) : t.Inv := by
  obtain ⟨_, _, rfl⟩ | ⟨_, _, v, rfl⟩ := exec_cases he
  · exact inv_setSeq h trivial
  · exact inv_setDuty h v

/-! ### The micro-steps -/

theorem State.written_n_iff (s : State) :
    s.Written s.profile.n ↔ ∀ c ∈ s.profile.ctlSeq, s.block.ctl.read c.1 = some c.2 := by
  rw [State.Written, Profile.n_eq, List.take_length]

theorem inv_microPin {s : State} (h : s.Inv) : (microPin s).Inv where
  cfgWf := h.cfgWf
  ctlWf := h.ctlWf
  ctlOnly := h.ctlOnly
  wavePrescale := h.wavePrescale
  waveMode m hm := by
    obtain ⟨hmode, _, hwritten⟩ := h.waveMode m hm
    exact ⟨hmode, rfl, hwritten⟩
  ovfieDone ho := by
    obtain ⟨hwave, hpre, _, hwritten⟩ := h.ovfieDone ho
    exact ⟨hwave, hpre, rfl, hwritten⟩
  runningDone hr := by
    obtain ⟨_, hdone⟩ := h.runningDone hr
    exact ⟨rfl, hdone⟩
  pendingWave := h.pendingWave
  irqEnabled := ovfie_of_irq
  seqInv := by
    have hn : 1 ≤ s.profile.n := Nat.one_le_of_lt (Profile.nW_lt_n (State.profile_wf h.cfgWf))
    have hlt : ¬ s.profile.nW < 1 := Nat.not_lt.mpr (Profile.nW_pos (State.profile_wf h.cfgWf))
    exact ⟨le_rfl, hn, rfl, fun c hc => (nomatch hc), fun h1 => absurd h1 hlt⟩

/-- R96: at Ret the interrupt is enabled, which is the last thing BEGIN does to the block. -/
theorem inv_microRet {s : State} (h : s.Inv) (hs : s.block.seq = .ret) : (microRet s).Inv where
  cfgWf := h.cfgWf
  ctlWf := h.ctlWf
  ctlOnly := h.ctlOnly
  wavePrescale := h.wavePrescale
  waveMode := h.waveMode
  ovfieDone := h.ovfieDone
  runningDone _ := by
    have hovfie : s.block.ovfie = true := by simpa only [State.SeqInv, hs] using h.seqInv
    obtain ⟨hwave, hpre, hpin, hwritten⟩ := h.ovfieDone hovfie
    exact ⟨hpin, hwave, hpre, hovfie, s.written_n_iff.mp hwritten⟩
  pendingWave := h.pendingWave
  irqEnabled := ovfie_of_irq
  seqInv := trivial

@[simp] theorem Block.afterReg_wave (p : Profile) (k : Nat) (c : Host.Cell) (b : Block) :
    (b.afterReg p k c).wave = if k = p.nW then some p.pwmMode else b.wave := by
  rw [Block.afterReg_eq]

@[simp] theorem Block.afterReg_prescale1 (p : Profile) (k : Nat) (c : Host.Cell) (b : Block) :
    (b.afterReg p k c).prescale1 = if k = p.nW then true else b.prescale1 := by
  rw [Block.afterReg_eq]

section Reg

variable {s : State} {k : Nat} {c : Host.Cell}

/-- The write of a pair disturbs no pair that is written: the addresses are distinct (R32). -/
theorem read_write_pair (hc : s.cfg.wf = true) (hmem : c ∈ s.profile.ctlSeq) {d : Host.Cell}
    (hd : d ∈ s.profile.ctlSeq) (h : d = c ∨ s.block.ctl.read d.1 = some d.2) :
    (s.block.ctl.write c.1 c.2).read d.1 = some d.2 := by
  by_cases hdc : d.1 = c.1
  · obtain rfl := Profile.eq_of_mem_ctlSeq (State.profile_wf hc) hd hmem hdc
    exact Memory.read_write_same _ _ _
  · rw [Memory.read_write_other _ _ hdc]
    exact h.resolve_left (fun hEq => hdc (congrArg Prod.fst hEq))

theorem take_of_ctlPair {p : Profile} (hp : ctlPair p k = some c) :
    p.ctlSeq.take k = p.ctlSeq.take (k - 1) ++ [c] := by
  obtain ⟨_, hpos, hget⟩ := ctlPair_mem hp
  conv_lhs => rw [← Nat.sub_add_cancel hpos, List.take_add_one, hget]
  rfl

theorem mem_take_of_ctlPair {p : Profile} {d : Host.Cell} (hp : ctlPair p k = some c)
    (hd : d ∈ p.ctlSeq.take k) : d = c ∨ d ∈ p.ctlSeq.take (k - 1) := by
  rw [take_of_ctlPair hp] at hd
  simpa [or_comm] using hd

theorem written_afterReg (hc : s.cfg.wf = true) (hp : ctlPair s.profile k = some c) {j : Nat}
    (h : s.Written j) : (s.setBlock (s.block.afterReg s.profile k c)).Written j := fun d hd => by
  rw [State.setBlock_block, Block.afterReg_ctl]
  exact read_write_pair hc (ctlPair_mem hp).1 (List.mem_of_mem_take hd) (.inr (h d hd))

/-- R97: once Reg(k) has been performed, the first `k` pairs are written. -/
theorem written_self_afterReg (hc : s.cfg.wf = true) (hp : ctlPair s.profile k = some c)
    (h : s.Written (k - 1)) : (s.setBlock (s.block.afterReg s.profile k c)).Written k :=
  fun d hd => by
    rw [State.setBlock_block, Block.afterReg_ctl]
    exact read_write_pair hc (ctlPair_mem hp).1 (List.mem_of_mem_take hd)
      ((mem_take_of_ctlPair hp hd).imp_right (h d))

theorem State.Inv.seqInv_reg (h : s.Inv) (hs : s.block.seq = .reg k) :
    1 ≤ k ∧ k ≤ s.profile.n ∧ s.block.pinDrive = true ∧ s.Written (k - 1) ∧
      (s.profile.nW < k → s.block.wave = some s.profile.pwmMode) := by
  simpa only [State.SeqInv, hs] using h.seqInv

/-- R94: from `k = nW` on the waveform is programmed. -/
theorem wave_afterReg (h : s.Inv) (hs : s.block.seq = .reg k) (hk : s.profile.nW ≤ k) :
    (s.block.afterReg s.profile k c).wave = some s.profile.pwmMode := by
  obtain ⟨_, _, _, _, hwave⟩ := h.seqInv_reg hs
  rw [Block.afterReg_wave]
  split
  · rfl
  · exact hwave (by omega)

theorem wave_afterReg_of_wave (h : s.block.wave = some s.profile.pwmMode) :
    (s.block.afterReg s.profile k c).wave = some s.profile.pwmMode := by
  simp [h]

theorem wavePrescale_afterReg (h : s.block.wave = none ↔ s.block.prescale1 = false) :
    (s.block.afterReg s.profile k c).wave = none ↔
      (s.block.afterReg s.profile k c).prescale1 = false := by
  by_cases hk : k = s.profile.nW
  · simp [hk]
  · simpa [hk] using h

theorem prescale1_of_wave {b : Block} (h : b.wave = none ↔ b.prescale1 = false) {m : PwmMode}
    (hm : b.wave = some m) : b.prescale1 = true := by
  rw [← Bool.not_eq_false, ← h, hm]
  nofun

/-- The position after Reg(k) is Reg(k + 1), with one more pair written, or Ret, with the interrupt
enabled. -/
theorem seqInv_afterReg (h : s.Inv) (hs : s.block.seq = .reg k)
    (hp : ctlPair s.profile k = some c) :
    (s.setBlock (s.block.afterReg s.profile k c)).SeqInv := by
  obtain ⟨hpos, hle, hpin, hwritten, _⟩ := h.seqInv_reg hs
  obtain hlt | rfl := Nat.lt_or_eq_of_le hle
  · simp only [State.SeqInv, State.setBlock_block, Block.afterReg_seq, nextReg_of_lt hlt]
    exact ⟨by omega, hlt, by simpa using hpin, written_self_afterReg h.cfgWf hp hwritten,
      fun hW => wave_afterReg h hs (Nat.le_of_lt_succ hW)⟩
  · simp only [State.SeqInv, State.setBlock_block, Block.afterReg_seq, nextReg_self,
      Block.afterReg_ovfie, if_true]

theorem inv_afterReg (h : s.Inv) (hs : s.block.seq = .reg k) (hp : ctlPair s.profile k = some c) :
    (s.setBlock (s.block.afterReg s.profile k c)).Inv := by
  obtain ⟨_, _, hpin, hwritten, _⟩ := h.seqInv_reg hs
  have hself := written_self_afterReg h.cfgWf hp hwritten
  have hpin' : (s.block.afterReg s.profile k c).pinDrive = true := by simpa using hpin
  have hpre := wavePrescale_afterReg (k := k) (c := c) h.wavePrescale
  constructor
  case cfgWf => exact h.cfgWf
  case ctlWf => simpa using Memory.wf_write c.1 c.2 h.ctlWf
  case ctlOnly =>
    intro a v hread
    simp only [State.setBlock_block, Block.afterReg_ctl, Memory.read_write] at hread
    split at hread
    · cases hread
      subst a
      exact (ctlPair_mem hp).1
    · exact h.ctlOnly a v hread
  case wavePrescale => exact hpre
  case waveMode =>
    intro m hm
    simp only [State.setBlock_block, Block.afterReg_wave] at hm
    split at hm
    · cases hm
      subst k
      exact ⟨rfl, hpin', hself⟩
    · obtain ⟨hmode, _, hw⟩ := h.waveMode m hm
      exact ⟨hmode, hpin', written_afterReg h.cfgWf hp hw⟩
  case ovfieDone =>
    intro ho
    simp only [State.setBlock_block, Block.afterReg_ovfie] at ho
    split at ho
    · subst k
      have hwave := wave_afterReg (c := c) h hs (Profile.nW_lt_n (State.profile_wf h.cfgWf)).le
      exact ⟨hwave, prescale1_of_wave hpre hwave, hpin', hself⟩
    · obtain ⟨hw, _, _, hall⟩ := h.ovfieDone ho
      have hwave := wave_afterReg_of_wave (k := k) (c := c) hw
      exact ⟨hwave, prescale1_of_wave hpre hwave, hpin', written_afterReg h.cfgWf hp hall⟩
  case runningDone =>
    intro hr
    obtain ⟨_, hw, _, ho, hall⟩ := h.runningDone (by simpa using hr)
    have hwave := wave_afterReg_of_wave (k := k) (c := c) hw
    have hall' := written_afterReg h.cfgWf hp (s.written_n_iff.mpr hall)
    exact ⟨hpin', hwave, prescale1_of_wave hpre hwave, by simp [ho],
      (State.written_n_iff _).mp hall'⟩
  case pendingWave =>
    intro hov
    have hwave := h.pendingWave (by simpa using hov)
    simp only [State.setBlock_block, Block.afterReg_wave]
    split
    · nofun
    · exact hwave
  case irqEnabled => exact ovfie_of_irq
  case seqInv => exact seqInv_afterReg h hs hp

end Reg

theorem inv_seqstep {s t : State} (h : s.Inv) (hq : seqstep s = some (.next t)) : t.Inv := by
  obtain ⟨_, rfl⟩ | ⟨k, hs, hk⟩ | ⟨hs, rfl⟩ := seqstep_cases hq
  · exact inv_microPin h
  · obtain ⟨c, hp, rfl⟩ := microReg_cases_of_wf h.cfgWf hk
    exact inv_afterReg h hs hp
  · exact inv_microRet h hs

/-- R35: every transition keeps the invariant. -/
theorem inv_transition {l : StepLabel} {s t : State} (h : s.Inv)
    (htr : transition l s = some (.next t)) : t.Inv := by
  obtain ⟨hc, _, _, ⟨w, i, rfl, _, he⟩ | ⟨rfl, hq⟩ | ⟨rfl, hr, rfl⟩ | ⟨rfl, _, rfl⟩ | ⟨rfl, rfl⟩⟩ :=
    transition_cases htr
  · exact inv_exec h he
  · exact inv_seqstep h hq
  · exact inv_raiseOverflow h hr
  · exact inv_takeInterrupt h
  · exact inv_of_afterReset hc rfl

theorem inv_resetOf {c : Config} (hc : c.wf = true) : (State.resetOf c).Inv :=
  inv_of_afterReset hc rfl

theorem runLabels_cfg {ls : List StepLabel} {s t : State} (h : runLabels ls s = some (.next t)) :
    t.cfg = s.cfg :=
  runLabels_keeps (P := fun u => u.cfg = s.cfg)
    (fun _ _ _ _ huv hu => (transition_frame huv).1.trans hu) h rfl

theorem inv_runLabels {ls : List StepLabel} {s t : State} (hs : s.Inv)
    (h : runLabels ls s = some (.next t)) : t.Inv :=
  runLabels_keeps (fun _ _ _ _ huv hu => inv_transition hu huv) h hs

theorem uN_duty_mem_Icc (d : Byte) : 0 ≤ uN d ∧ uN d ≤ 255 :=
  ⟨Int.natCast_nonneg _, Int.ofNat_le.mpr (Nat.le_of_lt_succ d.isLt)⟩

end Machine

open Machine

/-- Settles O46: a step is a transition, which keeps the invariant, or passes over an offer, which
leaves the block alone. -/
theorem stepKeepsTheInvariant : Obligations.StepKeepsTheInvariant := by
  intro s t h hstep
  have hoffer : (takeOffer s).Inv := h.congr (takeOffer_cfg s) (takeOffer_block s)
  obtain ⟨_, rfl⟩ | htr := perform_cases hstep
  · exact hoffer
  · exact inv_transition hoffer htr

/-- Settles O45: the block after a reset meets the invariant in every accepted configuration, the
candidate included. -/
theorem resetStateMeetsTheInvariant : Obligations.ResetStateMeetsTheInvariant :=
  ⟨rfl, inv_resetOf (by decide), fun _ => inv_resetOf⟩

/-- Settles O47: the invariant holds after the reset and along the run. -/
theorem reachableStatesMeetTheInvariants : Obligations.ReachableStatesMeetTheInvariants := by
  intro c ls t hc h
  have hinv : t.Inv := inv_runLabels (inv_resetOf hc) h
  have hprofile : t.profile = c.active := congrArg Config.active (runLabels_cfg h)
  rw [← hprofile]
  refine ⟨uN_duty_mem_Icc _, hinv.wavePrescale, fun ho => ?_, hinv.runningDone, hinv.pendingWave,
    hinv.irqEnabled⟩
  obtain ⟨hwave, hpre, hpin, _⟩ := hinv.ovfieDone ho
  exact ⟨hwave, hpre, hpin⟩

end Sys2Proof
end

section
/-! A whole BEGIN with no other agent's step in it (40_init_sequence.md R97): the block after each
micro-step in closed form, one commuting step per position, and the statements read off from it. -/

namespace Sys2Proof

namespace Machine

/-! ### Several register writes -/

/-- The control registers after the writes of a list of pairs, in order. -/
def Memory.writes (m : Memory) (l : List Host.Cell) : Memory :=
  l.foldl (fun m c => m.write c.1 c.2) m

@[simp] theorem Memory.writes_cons (m : Memory) (c : Host.Cell) (l : List Host.Cell) :
    m.writes (c :: l) = (m.write c.1 c.2).writes l := rfl

theorem Memory.writes_append (m : Memory) (l l' : List Host.Cell) :
    m.writes (l ++ l') = (m.writes l).writes l' :=
  List.foldl_append

theorem Memory.read_writes_of_not_mem (m : Memory) {l : List Host.Cell} {x : Nat}
    (h : x ∉ l.map Prod.fst) : (m.writes l).read x = m.read x := by
  induction l generalizing m with
  | nil => rfl
  | cons c l ih =>
    rw [List.map_cons, List.mem_cons, not_or] at h
    rw [Memory.writes_cons, ih _ h.2, Memory.read_write_other m c.2 h.1]

/-- Writes to distinct addresses all stand. -/
theorem Memory.read_writes_of_mem (m : Memory) {l : List Host.Cell} (hl : (l.map Prod.fst).Nodup)
    {c : Host.Cell} (hc : c ∈ l) : (m.writes l).read c.1 = some c.2 := by
  induction l generalizing m with
  | nil => cases hc
  | cons d l ih =>
    rw [List.map_cons, List.nodup_cons] at hl
    rw [Memory.writes_cons]
    obtain rfl | hc := List.mem_cons.mp hc
    · rw [Memory.read_writes_of_not_mem _ hl.1, Memory.read_write_same]
    · exact ih _ hl.2 hc

/-- R55, for a list of pairs. -/
theorem Memory.writes_held {m : Memory} (hm : m.wf = true) {l : List Host.Cell}
    (hl : ∀ c ∈ l, m.read c.1 = some c.2) : m.writes l = m := by
  induction l with
  | nil => rfl
  | cons c l ih =>
    rw [Memory.writes_cons, Memory.write_held hm (hl c (.head _))]
    exact ih fun d hd => hl d (.tail _ hd)

/-! ### The block after `j` micro-steps -/

/-- The block once BEGIN and `j` of its micro-steps have been performed on `b`, for `j ≤ n + 2`. -/
def Block.afterMicro (p : Profile) (j : Nat) (b : Block) : Block :=
  { b with
    mode := if j = p.n + 2 then .running else b.mode
    seq := positionAfter p j
    ctl := b.ctl.writes (p.ctlSeq.take (j - 1))
    wave := if p.nW < j then some p.pwmMode else b.wave
    prescale1 := if p.nW < j then true else b.prescale1
    ovfie := if p.n < j then true else b.ovfie
    pinDrive := if 1 ≤ j then true else b.pinDrive }

theorem positionAfter_reg {p : Profile} {k : Nat} (hpos : 1 ≤ k) (hle : k ≤ p.n) :
    positionAfter p k = .reg k := by
  rw [positionAfter, if_neg (by omega), if_pos hle]

theorem positionAfter_ret (p : Profile) : positionAfter p (p.n + 1) = .ret := by
  simp [positionAfter]

theorem positionAfter_idle (p : Profile) : positionAfter p (p.n + 2) = .idle := by
  simp [positionAfter]

theorem positionAfter_succ {p : Profile} {k : Nat} (hpos : 1 ≤ k) (hle : k ≤ p.n) :
    positionAfter p (k + 1) = nextReg k p.n := by
  obtain hlt | rfl := Nat.lt_or_eq_of_le hle
  · rw [nextReg_of_lt hlt, positionAfter_reg (by omega) hlt]
  · rw [nextReg_self, positionAfter_ret]

theorem Block.afterMicro_zero (p : Profile) (b : Block) : b.afterMicro p 0 = b.setSeq .pin := rfl

/-- R92: `Pin` is the first micro-step. -/
theorem Block.afterMicro_pin {p : Profile} (hp : p.wf = true) (b : Block) :
    (b.afterMicro p 0).drivePin.setSeq (.reg 1) = b.afterMicro p 1 := by
  have hW : ¬ p.nW < 1 := Nat.not_lt.mpr (Profile.nW_pos hp)
  have hn : 1 ≤ p.n := Nat.one_le_of_lt (Profile.nW_lt_n hp)
  simp [Block.afterMicro, Block.drivePin, Block.setSeq, positionAfter_reg le_rfl hn, hW,
    Nat.not_lt.mpr hn]

/-- R93 to R95: `Reg(k)` is the micro-step after the first `k`. -/
theorem Block.afterMicro_reg {p : Profile} {k : Nat} {c : Host.Cell} (hp : ctlPair p k = some c)
    (b : Block) : (b.afterMicro p k).afterReg p k c = b.afterMicro p (k + 1) := by
  obtain ⟨hpos, hle⟩ := ctlPair_le_n hp
  have hW : p.nW < k + 1 ↔ k = p.nW ∨ p.nW < k := by omega
  have hn : p.n < k + 1 ↔ k = p.n := by omega
  have hctl : (b.ctl.writes (p.ctlSeq.take (k - 1))).write c.1 c.2 =
      b.ctl.writes (p.ctlSeq.take k) := by
    rw [take_of_ctlPair hp, Memory.writes_append]
    rfl
  rw [Block.afterReg_eq]
  simp only [Block.afterMicro, positionAfter_succ hpos hle, nextReg, hctl, hW, hn, ite_or,
    if_pos hpos, if_neg (Nat.not_lt.mpr hle), if_neg (show k ≠ p.n + 2 by omega),
    if_neg (show k + 1 ≠ p.n + 2 by omega), Nat.add_sub_cancel, if_pos (Nat.le_add_left 1 k)]

/-- The block with BEGIN's configuration programmed, in mode Running (R92 to R96). -/
def Block.configured (p : Profile) (b : Block) : Block :=
  { b with
    mode := .running
    seq := .idle
    ctl := b.ctl.writes p.ctlSeq
    wave := some p.pwmMode
    prescale1 := true
    ovfie := true
    pinDrive := true }

theorem Block.afterMicro_all (p : Profile) (b : Block) :
    b.afterMicro p (p.n + 2) = b.configured p := by
  have hall : p.ctlSeq.take (p.n + 1) = p.ctlSeq :=
    List.take_of_length_le (by rw [Profile.n_eq]; omega)
  have hW : p.nW < p.n + 2 := by rw [Profile.n]; omega
  simp [Block.afterMicro, Block.configured, positionAfter_idle, hall, hW]

/-- R96: `Ret` is the last micro-step. -/
theorem Block.afterMicro_ret (p : Profile) (b : Block) :
    ((b.afterMicro p (p.n + 1)).setMode .running).setSeq .idle = b.afterMicro p (p.n + 2) := by
  have hall : p.ctlSeq.take p.n = p.ctlSeq := by rw [Profile.n_eq, List.take_length]
  have hW : p.nW < p.n + 1 := by rw [Profile.n]; omega
  rw [Block.afterMicro_all]
  simp [Block.afterMicro, Block.configured, Block.setMode, Block.setSeq, hall, hW]

/-! ### The run -/

theorem runLabels_cons_of_next {l : StepLabel} (ls : List StepLabel) {s t : State}
    (h : transition l s = some (.next t)) : runLabels (l :: ls) s = runLabels ls t := by
  simp [runLabels, h]

theorem runLabels_append_of_next {ls : List StepLabel} (ms : List StepLabel) {s t : State}
    (h : runLabels ls s = some (.next t)) : runLabels (ls ++ ms) s = runLabels ms t := by
  induction ls generalizing s with
  | nil => cases h; rfl
  | cons l ls ih =>
    obtain ⟨u, hl, hrest⟩ := runLabels_cons_eq_next h
    rw [List.cons_append, runLabels_cons_of_next _ hl, ih hrest]

theorem State.Admitted.setBlock {s : State} (h : s.Admitted) (b : Block) :
    (s.setBlock b).Admitted := h

/-- Each micro-step takes the closed form of the block to the next one. -/
theorem seqstep_afterMicro {s : State} (hc : s.cfg.wf = true) {j : Nat}
    (hj : j < s.profile.n + 2) :
    seqstep (s.setBlock (s.block.afterMicro s.profile j)) =
      some (.next (s.setBlock (s.block.afterMicro s.profile (j + 1)))) := by
  obtain rfl | hpos := Nat.eq_zero_or_pos j
  · rw [← Block.afterMicro_pin (State.profile_wf hc)]
    exact seqstep_pin rfl
  · obtain hgt | hle := Nat.lt_or_ge s.profile.n j
    · obtain rfl : j = s.profile.n + 1 := by omega
      rw [← Block.afterMicro_ret]
      exact seqstep_ret (positionAfter_ret _)
    · obtain ⟨c, hp⟩ := exists_ctlPair hpos hle
      rw [← Block.afterMicro_reg hp, seqstep_reg (positionAfter_reg hpos hle)]
      exact congrArg some (microReg_of_ctlPair (s := s.setBlock _) hc hp)

/-- R97: BEGIN and its first `j` micro-steps, from Idle. -/
theorem runLabels_begin {s : State} (hs : s.Admitted) (hidle : s.block.seq = .idle) {j : Nat}
    (hj : j ≤ s.profile.n + 2) :
    runLabels (.cmd 0x10000#20 :: List.replicate j .seqstep) s =
      some (.next (s.setBlock (s.block.afterMicro s.profile j))) := by
  induction j with
  | zero =>
    have hbegin : transition (.cmd 0x10000#20) s = some (execBegin s) :=
      transition_cmd_of_decode_eq_ok hs (decode_encode .begin)
    rw [execBegin_of_idle hidle] at hbegin
    rw [Block.afterMicro_zero]
    exact runLabels_cons_of_next [] hbegin
  | succ j ih =>
    have hrun := ih (by omega)
    have hstep : transition .seqstep (s.setBlock (s.block.afterMicro s.profile j)) =
        some (.next (s.setBlock (s.block.afterMicro s.profile (j + 1)))) := by
      rw [transition_of_admitted (hs.setBlock _)]
      exact seqstep_afterMicro hs.1 hj
    rw [List.replicate_succ', ← List.cons_append, runLabels_append_of_next _ hrun,
      runLabels_cons_of_next _ hstep]
    rfl

theorem runLabels_beginRun {s : State} (hs : s.Admitted) (hidle : s.block.seq = .idle) :
    runLabels (beginRun s.profile) s =
      some (.next (s.setBlock (s.block.configured s.profile))) := by
  rw [beginRun, runLabels_begin hs hidle le_rfl, Block.afterMicro_all]

/-! ### BEGIN as one atomic action -/

theorem regWrites_of_ctl {l : List Host.Cell} {s : State}
    (h : ∀ c ∈ l, c.1 ≠ s.profile.dutyAddr ∧ c.1 ∈ s.profile.ctlAddrs) :
    regWrites l s = .next (s.setBlock (s.block.setCtl (s.block.ctl.writes l))) := by
  induction l generalizing s with
  | nil => rfl
  | cons c l ih =>
    obtain ⟨hduty, hctl⟩ := h c (.head _)
    rw [regWrites, regWrite_ctl c.2 hduty hctl, andThen_next, ih]
    · rfl
    · exact fun d hd => h d (.tail _ hd)

theorem regWrites_ctlSeq {s : State} (hc : s.cfg.wf = true) :
    regWrites s.profile.ctlSeq s =
      .next (s.setBlock (s.block.setCtl (s.block.ctl.writes s.profile.ctlSeq))) :=
  regWrites_of_ctl fun _ hd => ⟨ctl_ne_dutyAddr hc hd, List.mem_map_of_mem hd⟩

theorem atomicBegin_of_idle {s : State} (hc : s.cfg.wf = true) (hidle : s.block.seq = .idle) :
    atomicBegin s = .next (s.setBlock (s.block.configured s.profile)) := by
  have hw := regWrites_ctlSeq (s := s.setBlock s.block.drivePin) hc
  rw [State.setBlock_profile] at hw
  rw [atomicBegin, hw, andThen_next, Block.configured, ← hidle]
  rfl

/-! ### A BEGIN on a block that is configured already -/

theorem Block.configured_of_done {p : Profile} {b : Block} (hmode : b.mode = .running)
    (hseq : b.seq = .idle) (hctl : b.ctl.writes p.ctlSeq = b.ctl) (hwave : b.wave = some p.pwmMode)
    (hpre : b.prescale1 = true) (hovfie : b.ovfie = true) (hpin : b.pinDrive = true) :
    b.configured p = b := by
  cases b
  simp_all [Block.configured]

theorem Block.afterReg_of_done {p : Profile} {k : Nat} {c : Host.Cell} {b : Block}
    (hctl : b.ctl.write c.1 c.2 = b.ctl) (hwave : b.wave = some p.pwmMode)
    (hpre : b.prescale1 = true) (hovfie : b.ovfie = true) :
    b.afterReg p k c = b.setSeq (nextReg k p.n) := by
  rw [Block.afterReg_eq, hctl, ← hwave, hpre, hovfie, ite_self, ite_self, ite_self]
  cases b
  simp_all [Block.setSeq, nextReg]

theorem Block.drivePin_of_pinDrive {b : Block} (h : b.pinDrive = true) : b.drivePin = b := by
  rw [Block.drivePin, ← h]

theorem Block.setMode_of_mode {b : Block} {m : Mode} (h : b.mode = m) : b.setMode m = b := by
  rw [Block.setMode, ← h]

/-- R99: in a Running state a micro-step moves the position alone. -/
theorem seqstep_of_running {s t : State} (h : s.Inv) (hr : s.block.mode = .running)
    (hq : seqstep s = some (.next t)) : t = s.setBlock (s.block.setSeq t.block.seq) := by
  obtain ⟨hpin, hwave, hpre, hovfie, hall⟩ := h.runningDone hr
  obtain ⟨_, rfl⟩ | ⟨k, _, hk⟩ | ⟨_, rfl⟩ := seqstep_cases hq
  · rw [microPin, Block.drivePin_of_pinDrive hpin]
    rfl
  · obtain ⟨c, hp, rfl⟩ := microReg_cases_of_wf h.cfgWf hk
    have hheld := Memory.write_held h.ctlWf (hall c (ctlPair_mem hp).1)
    rw [Block.afterReg_of_done hheld hwave hpre hovfie]
    rfl
  · rw [microRet, Block.setMode_of_mode hr]
    rfl

/-! ### What does not depend on the position -/

theorem writeDuty_setSeq (v : Byte) (s : State) (q : SeqPos) :
    writeDuty v (s.onBlock (·.setSeq q)) =
      mapNext (State.onBlock (·.setSeq q)) (writeDuty v s) := by
  cases hw : s.secondWriter with
  | false => rw [writeDuty_single v hw, writeDuty_single v (by simpa using hw)]; rfl
  | true => rw [writeDuty_second v hw, writeDuty_second v (by simpa using hw)]; rfl

theorem ovfStep_setSeq (s : State) (q : SeqPos) :
    ovfStep (s.onBlock (·.setSeq q)) = (ovfStep s).map (State.onBlock (·.setSeq q)) := by
  by_cases hr : s.block.timerRuns = true
  · rw [ovfStep_of_timerRuns hr, ovfStep_of_timerRuns (s := s.onBlock (·.setSeq q)) hr]; rfl
  · rw [ovfStep_of_not_timerRuns hr, ovfStep_of_not_timerRuns (s := s.onBlock (·.setSeq q)) hr]; rfl

theorem irqackStep_setSeq (s : State) (q : SeqPos) :
    irqackStep (s.onBlock (·.setSeq q)) = (irqackStep s).map (State.onBlock (·.setSeq q)) := by
  by_cases hr : s.block.irq = true
  · rw [irqackStep_of_irq hr, irqackStep_of_irq (s := s.onBlock (·.setSeq q)) hr]; rfl
  · rw [irqackStep_of_not_irq hr, irqackStep_of_not_irq (s := s.onBlock (·.setSeq q)) hr]; rfl

theorem labelStep_setSeq {l : StepLabel} (hl : l = .ovf ∨ l = .irqack ∨ isWriteLabel l = true)
    (s : State) (q : SeqPos) :
    labelStep l (s.onBlock (·.setSeq q)) =
      (labelStep l s).map (mapNext (State.onBlock (·.setSeq q))) := by
  obtain rfl | rfl | hw := hl
  · simp [labelStep, ovfStep_setSeq, Function.comp_def]
  · simp [labelStep, irqackStep_setSeq, Function.comp_def]
  · cases l with
    | cmd w =>
      obtain ⟨p, hd⟩ := decode_of_isWriteLabel hw
      simp only [labelStep, cmdStep_of_decode_eq_ok hd, exec_write, writeDuty_setSeq,
        Option.map_some]
    | seqstep => cases hw
    | ovf => cases hw
    | irqack => cases hw
    | reset => cases hw

/-- R99: an overflow, an acknowledge and a WRITE neither read nor move the position. -/
theorem transition_setSeq {l : StepLabel} (hl : l = .ovf ∨ l = .irqack ∨ isWriteLabel l = true)
    (s : State) (q : SeqPos) :
    transition l (s.onBlock (·.setSeq q)) =
      (transition l s).map (mapNext (State.onBlock (·.setSeq q))) := by
  cases ha : admission l s with
  | some r => simp [transition, ha]
  | none => simpa only [transition, admission_onBlock, ha] using labelStep_setSeq hl s q

/-! ### Single micro-steps -/

theorem transition_seqstep_eq_next {s t : State} (h : transition .seqstep s = some (.next t)) :
    s.cfg.wf = true ∧ seqstep s = some (.next t) := by
  obtain ⟨hc, _, _, hlabel⟩ := transition_cases h
  exact ⟨hc, by simpa using hlabel⟩

/-- R98: a micro-step does not take a programmed waveform away. -/
theorem seqstep_keeps_waveform {s t : State} (hc : s.cfg.wf = true)
    (h : seqstep s = some (.next t)) :
    (s.block.wave ≠ none → t.block.wave ≠ none) ∧
    (s.block.prescale1 = true → t.block.prescale1 = true) := by
  obtain ⟨_, rfl⟩ | ⟨k, _, hk⟩ | ⟨_, rfl⟩ := seqstep_cases h
  · exact ⟨id, id⟩
  · obtain ⟨c, _, rfl⟩ := microReg_cases_of_wf hc hk
    refine ⟨fun hw => ?_, fun hp => by simp [hp]⟩
    rw [State.setBlock_block, Block.afterReg_wave]
    split
    · nofun
    · exact hw
  · exact ⟨id, id⟩

end Machine

open Machine

/-- Settles O28: the block after `j` micro-steps is known in closed form. -/
theorem beginRunsThroughItsPositions : Obligations.BeginRunsThroughItsPositions := by
  intro s j hs hidle hj
  refine ⟨_, runLabels_begin hs hidle hj, rfl, fun c hc => ?_, ?_, fun hW => ⟨?_, ?_⟩, ?_⟩
  · obtain ⟨_, _, hnodup, _⟩ := (Profile.wf_iff _).mp (State.profile_wf hs.1)
    exact Memory.read_writes_of_mem _ (hnodup.sublist ((List.take_sublist _ _).map _)) hc
  · exact fun h => if_pos h
  · exact if_pos hW
  · exact if_pos hW
  · exact fun h => if_pos h

/-- Settles O29: the block at the end is the configured one, and writes to distinct addresses all
stand. -/
theorem beginCompletesAndConfigures : Obligations.BeginCompletesAndConfigures := by
  intro s hs hidle
  obtain ⟨_, _, hnodup, _⟩ := (Profile.wf_iff _).mp (State.profile_wf hs.1)
  exact ⟨s.block.ctl.writes s.profile.ctlSeq, runLabels_beginRun hs hidle,
    fun _ hp => Memory.read_writes_of_mem _ hnodup hp,
    fun _ hx => Memory.read_writes_of_not_mem _ hx⟩

/-- Settles O30: both forms lead to the configured block. -/
theorem sequentialBeginRefinesAtomicBegin : Obligations.SequentialBeginRefinesAtomicBegin :=
  fun _ hs hidle => ⟨_, atomicBegin_of_idle hs.1 hidle, runLabels_beginRun hs hidle⟩

/-- Settles O31: a Running block that meets the invariant is configured already. -/
theorem repeatedBeginChangesNothing : Obligations.RepeatedBeginChangesNothing := by
  intro s h hs hr hidle
  obtain ⟨hpin, hwave, hpre, hovfie, hall⟩ := h.runningDone hr
  have hheld := Memory.writes_held h.ctlWf hall
  rw [runLabels_beginRun hs hidle, Block.configured_of_done hr hidle hheld hwave hpre hovfie hpin,
    State.setBlock_block_self]

/-- Settles O32: a micro-step of a repeated BEGIN writes what stands there already, and the other
steps leave the position alone. -/
theorem repeatedBeginInterleavesHarmlessly : Obligations.RepeatedBeginInterleavesHarmlessly := by
  refine ⟨fun s t h hr htr => ?_, fun l s q hl => transition_setSeq hl s q⟩
  exact seqstep_of_running h hr (transition_seqstep_eq_next htr).2

/-- Settles O33, field by field. -/
theorem microStepsClearNothing : Obligations.MicroStepsClearNothing := by
  intro s t h
  obtain ⟨hc, hq⟩ := transition_seqstep_eq_next h
  obtain ⟨_, hovfie, hpin, _⟩ := seqstep_stillGoing hc hq
  obtain ⟨hwave, hpre⟩ := seqstep_keeps_waveform hc hq
  exact ⟨seqstep_duty hc hq, seqstep_ovfPending hc hq, hpin, hwave, hpre, hovfie⟩

/-- Settles O34: the invariant keeps the sequencer at a position of R20, each of which has its
micro-step. -/
theorem sequencerNeverWaits : Obligations.SequencerNeverWaits := by
  intro s h hs hidle
  rw [transition_of_admitted hs]
  exact exists_seqstep_eq_next h.cfgWf h.seqInv hidle

end Sys2Proof
end

section
/-! Infinite runs (40_init_sequence.md R102, 60_exceptions.md R132, R136): what keeps a label
enabled until it is taken makes a weakly fair agent take it; a BEGIN in progress has a number of
micro-steps left, which only the sequencer changes, and then by one. Of finite runs: a start-up has
one BEGIN (R149, R162), and an on-time period plays its sample (R137). -/

namespace Sys2Proof

namespace Machine

/-! ### The micro-steps a BEGIN has left -/

/-- The number of micro-steps before the sequencer is Idle, of a list of `n` pairs (R92 to R96). -/
def SeqPos.stepsLeft (n : Nat) : SeqPos → Nat
  | .idle => 0
  | .pin => n + 2
  | .reg k => n + 2 - k
  | .ret => 1

/-- R24: a micro-step is one of those that were left. -/
theorem seqstep_stepsLeft {s t : State} (hc : s.cfg.wf = true) (h : seqstep s = some (.next t)) :
    t.block.seq.stepsLeft s.profile.n + 1 = s.block.seq.stepsLeft s.profile.n := by
  obtain ⟨hs, ht⟩ | ⟨k, hs, _, hlt, ht⟩ | ⟨hs, ht⟩ | ⟨hs, ht⟩ := seqstep_seq hc h
  · simp [hs, ht, SeqPos.stepsLeft]
  · simp only [hs, ht, SeqPos.stepsLeft]
    omega
  · simp [hs, ht, SeqPos.stepsLeft]
  · simp [hs, ht, SeqPos.stepsLeft]

/-- R102: whoever else acts, short of a reset, a BEGIN in progress stays where it is. -/
theorem transition_keeps_seq {l : StepLabel} {s t : State} (h : transition l s = some (.next t))
    (hq : l ≠ .seqstep) (hr : l ≠ .reset) (hs : s.block.seq ≠ .idle) :
    t.block.seq = s.block.seq := by
  obtain ⟨_, _, _, ⟨w, i, rfl, _, he⟩ | ⟨rfl, _⟩ | ⟨rfl, _, rfl⟩ | ⟨rfl, _, rfl⟩ | ⟨rfl, _⟩⟩ :=
    transition_cases h
  · obtain ⟨_, hidle, _⟩ | ⟨_, _, v, rfl⟩ := exec_cases he
    · exact absurd hidle hs
    · rfl
  · exact absurd rfl hq
  · rfl
  · rfl
  · exact absurd rfl hr

/-- R134: short of a reset, only the dispatcher takes the interrupt down. -/
theorem transition_keeps_irq {l : StepLabel} {s t : State} (h : transition l s = some (.next t))
    (ha : l ≠ .irqack) (hr : l ≠ .reset) (hs : s.block.irq = true) : t.block.irq = true := by
  obtain ⟨hpending, hovfie⟩ := (Block.irq_iff _).mp hs
  refine (Block.irq_iff _).mpr ⟨?_, (transition_stillGoing h hr).ovfie hovfie⟩
  rw [pendingFlagIsWrittenByOvfAckAndResetOnly l s t h]
  cases l with
  | cmd w => exact hpending
  | seqstep => exact hpending
  | ovf => rfl
  | irqack => exact absurd rfl ha
  | reset => exact absurd rfl hr

/-! ### Enabled labels -/

theorem enabled_seqstep_of_ne_idle {s : State} (h : s.block.seq ≠ .idle) :
    enabled .seqstep s = true := by
  cases hs : s.block.seq with
  | idle => exact absurd hs h
  | pin => simp [enabled, labelStep, seqstep_pin hs]
  | reg k => simp [enabled, labelStep, seqstep_reg hs]
  | ret => simp [enabled, labelStep, seqstep_ret hs]

theorem enabled_ovf_of_timerRuns {s : State} (h : s.block.timerRuns = true) :
    enabled .ovf s = true := by
  simp [enabled, labelStep, ovfStep_of_timerRuns h]

theorem enabled_irqack_of_irq {s : State} (h : s.block.irq = true) :
    enabled .irqack s = true := by
  simp [enabled, labelStep, irqackStep_of_irq h]

/-! ### Infinite runs -/

section InfiniteRun

variable {r : InfiniteRun}

/-- What every step of an infinite run keeps holds from the time on at which it holds. -/
theorem InfiniteRun.keeps {P : State → Prop} (hstep : ∀ k, P (r.state k) → P (r.state (k + 1)))
    {j k : Nat} (hjk : j ≤ k) (hj : P (r.state j)) : P (r.state k) := by
  induction k, hjk using Nat.le_induction with
  | base => exact hj
  | succ k _ ih => exact hstep k ih

/-- A label that stays enabled, and a fact that stays true, until the label is taken: a weakly fair
agent takes the label at a time at which the fact holds. -/
theorem InfiniteRun.WeaklyFair.taken {l : StepLabel} (hf : r.WeaklyFair l) {P : State → Prop}
    (henabled : ∀ s, P s → enabled l s = true)
    (hkeep : ∀ k, r.label k ≠ l → P (r.state k) → P (r.state (k + 1)))
    {k : Nat} (hk : P (r.state k)) : ∃ j, k ≤ j ∧ r.label j = l ∧ P (r.state j) := by
  by_contra hnever
  have hP : ∀ j, k ≤ j → P (r.state j) := fun j hj => by
    induction j, hj using Nat.le_induction with
    | base => exact hk
    | succ j hj ih => exact hkeep j (fun hl => hnever ⟨j, hj, hl, ih⟩) ih
  obtain ⟨j, hj, hl⟩ := hf k fun j hj => henabled _ (hP j hj)
  exact hnever ⟨j, hj, hl, hP j hj⟩

theorem InfiniteRun.cfg_eq (k : Nat) : (r.state k).cfg = (r.state 0).cfg :=
  InfiniteRun.keeps (P := fun s => s.cfg = (r.state 0).cfg)
    (fun k hk => (transition_frame (r.steps k)).1.trans hk) k.zero_le rfl

theorem InfiniteRun.profile_eq (k : Nat) : (r.state k).profile = (r.state 0).profile :=
  congrArg Config.active (InfiniteRun.cfg_eq k)

theorem InfiniteRun.inv (h0 : (r.state 0).Inv) (k : Nat) : (r.state k).Inv :=
  InfiniteRun.keeps (P := State.Inv) (fun k hk => inv_transition hk (r.steps k)) k.zero_le h0

/-- R102: a BEGIN in progress is over after as many fair micro-steps as it has left. -/
theorem InfiniteRun.begin_completes (hf : r.WeaklyFair .seqstep) (hr : ∀ k, r.label k ≠ .reset)
    {k : Nat} (hk : (r.state k).block.seq ≠ .idle) :
    ∃ j, k ≤ j ∧ (r.state j).block.seq = .idle ∧ (r.state j).block.mode = .running := by
  induction hm : (r.state k).block.seq.stepsLeft (r.state 0).profile.n
    using Nat.strong_induction_on generalizing k with
  | h m ih =>
    obtain ⟨j, hj, hl, hseq⟩ := hf.taken (P := fun s => s.block.seq = (r.state k).block.seq)
      (fun s hs => enabled_seqstep_of_ne_idle (hs ▸ hk))
      (fun i hi hs => (transition_keeps_seq (r.steps i) hi (hr i) (hs ▸ hk)).trans hs) rfl
    obtain ⟨hc, hstep⟩ := transition_seqstep_eq_next (hl ▸ r.steps j)
    by_cases hidle : (r.state (j + 1)).block.seq = .idle
    · have hret : (r.state j).block.seq = .ret := by
        obtain ⟨_, ht⟩ | ⟨_, _, _, _, ht⟩ | ⟨_, ht⟩ | ⟨hs, _⟩ := seqstep_seq hc hstep
        · cases ht.symm.trans hidle
        · cases ht.symm.trans hidle
        · cases ht.symm.trans hidle
        · exact hs
      exact ⟨j + 1, by omega, hidle, by rw [seqstep_mode hc hstep, if_pos hret]⟩
    · have hleft := seqstep_stepsLeft hc hstep
      rw [InfiniteRun.profile_eq, hseq] at hleft
      obtain ⟨i, hi, hdone⟩ := ih _ (by omega) hidle rfl
      exact ⟨i, by omega, hdone⟩

end InfiniteRun

/-! ### The start-up's BEGIN -/

/-- The block's position is where the start-up says it is; after the `Ret` it says nothing. -/
def StartUp.Agrees (n : Nat) (q : SeqPos) : StartUp → Prop
  | .unbegun => q = .idle
  | .begun left => q.stepsLeft n = left + 1
  | .returned => True

section StartUp

variable (p : Profile) (u : StartUp)

theorem StartUp.after_reset : u.after p .reset = some .unbegun := by
  cases u <;> rfl

theorem StartUp.after_ovf : u.after p .ovf = some u := by
  cases u <;> rfl

theorem StartUp.after_irqack : u.after p .irqack = some u := by
  cases u <;> rfl

theorem StartUp.after_cmd_of_ne {w : CmdWord} (h : w ≠ 0x10000#20) :
    u.after p (.cmd w) = some u := by
  cases u <;> exact if_neg h

end StartUp

/-- R100: an accepted BEGIN finds the sequencer Idle, so it is not the second of its start-up. -/
theorem StartUp.Agrees.begin {u : StartUp} {p : Profile} (h : u.Agrees p.n .idle) :
    ∃ v, u.after p (.cmd 0x10000#20) = some v ∧ v.Agrees p.n .pin := by
  cases u with
  | unbegun => exact ⟨.begun (p.n + 1), rfl, rfl⟩
  | begun left => cases h
  | returned => exact ⟨.returned, rfl, trivial⟩

theorem StartUp.Agrees.seqstep {u : StartUp} {p : Profile} {q q' : SeqPos} (h : u.Agrees p.n q)
    (hq : q'.stepsLeft p.n + 1 = q.stepsLeft p.n) :
    ∃ v, u.after p .seqstep = some v ∧ v.Agrees p.n q' := by
  cases u with
  | unbegun => rw [StartUp.Agrees] at h; subst h; cases hq
  | begun left =>
    rw [StartUp.Agrees] at h
    cases left with
    | zero => exact ⟨.returned, rfl, trivial⟩
    | succ k => exact ⟨.begun k, rfl, by rw [StartUp.Agrees]; omega⟩
  | returned => exact ⟨.returned, rfl, trivial⟩

/-- A transition is no second BEGIN of its start-up, and the start-up keeps up with the block. -/
theorem StartUp.Agrees.transition {u : StartUp} {l : StepLabel} {s t : State}
    (h : u.Agrees s.profile.n s.block.seq) (htr : Machine.transition l s = some (.next t)) :
    ∃ v, u.after s.profile l = some v ∧ v.Agrees s.profile.n t.block.seq := by
  obtain ⟨hc, _, _, ⟨w, i, rfl, hd, he⟩ | ⟨rfl, hq⟩ | ⟨rfl, _, rfl⟩ | ⟨rfl, _, rfl⟩ | ⟨rfl, rfl⟩⟩ :=
    transition_cases htr
  · obtain ⟨rfl, hidle, rfl⟩ | ⟨hwrite, _, v, rfl⟩ := exec_cases he
    · rw [hidle] at h
      obtain rfl : encode .begin = w := encode_eq_of_decode_eq_ok hd
      exact h.begin
    · have hne : w ≠ 0x10000#20 := by
        rintro rfl
        cases hd
        cases hwrite
      exact ⟨u, u.after_cmd_of_ne _ hne, h⟩
  · exact h.seqstep (seqstep_stepsLeft hc hq)
  · exact ⟨u, u.after_ovf _, h⟩
  · exact ⟨u, u.after_irqack _, h⟩
  · exact ⟨.unbegun, u.after_reset _, rfl⟩

theorem presentsBeginOnceFrom_of_run {ls : List StepLabel} {u : StartUp} {s t : State}
    (hu : u.Agrees s.profile.n s.block.seq) (h : runLabels ls s = some (.next t)) :
    presentsBeginOnceFrom s.profile u ls = true := by
  induction ls generalizing u s with
  | nil => rfl
  | cons l ls ih =>
    obtain ⟨s', hl, hrest⟩ := runLabels_cons_eq_next h
    obtain ⟨v, hafter, hv⟩ := hu.transition hl
    have hprofile : s'.profile = s.profile := congrArg Config.active (transition_frame hl).1
    rw [presentsBeginOnceFrom, hafter]
    rw [← hprofile] at hv ⊢
    exact ih hv hrest

/-! ### The period between an acknowledge and the next overflow -/

theorem transition_cmd_eq_next {w : CmdWord} {i : Instr} {s t : State} (hd : decode w = .ok i)
    (h : transition (.cmd w) s = some (.next t)) : exec i s = .next t := by
  obtain ⟨_, _, _, hlabel⟩ := transition_cases h
  simpa [hd] using hlabel

theorem duty_of_transition_write {w : CmdWord} {p : Sample} {s t : State}
    (hd : decode w = .ok (.write p)) (h : transition (.cmd w) s = some (.next t)) :
    uN t.block.duty = dutyOf p := by
  have he := transition_cmd_eq_next hd h
  rw [exec_write] at he
  obtain ⟨_, rfl⟩ := writeDuty_cases he
  exact uN_bitsN_dutyOf p

/-- R137, from inside a period in which `m` WRITEs have been performed: if the run to its `ovf` is
on time then either a WRITE stands in it, the last of which fixes the duty, or `m` is 1 and the duty
stays. -/
theorem duty_of_onTimeFrom {ls : List StepLabel} {m : Nat} {s t : State}
    (ho : StepLabel.ovf ∉ ls) (hr : StepLabel.reset ∉ ls)
    (htime : onTimeFrom (some m) (ls ++ [.ovf]) = true)
    (h : runLabels (ls ++ [.ovf]) s = some (.next t)) :
    (∃ p : Sample, .cmd (encode (.write p)) ∈ ls ∧ uN t.block.duty = dutyOf p) ∨
    (m = 1 ∧ t.block.duty = s.block.duty) := by
  induction ls generalizing m s with
  | nil =>
    obtain ⟨u, hl, hrest⟩ := runLabels_cons_eq_next h
    cases hrest
    have hduty := transition_duty hl rfl nofun
    exact .inr ⟨by simpa [onTimeFrom] using htime, hduty⟩
  | cons l ls ih =>
    obtain ⟨u, hl, hrest⟩ := runLabels_cons_eq_next h
    rw [List.mem_cons, not_or] at ho hr
    have hrec {m' : Nat} (ht : onTimeFrom (some m') (ls ++ [.ovf]) = true) :
        (∃ p : Sample, .cmd (encode (.write p)) ∈ l :: ls ∧ uN t.block.duty = dutyOf p) ∨
        (m' = 1 ∧ t.block.duty = u.block.duty) :=
      (ih ho.2 hr.2 ht hrest).imp_left fun ⟨p, hp, hd⟩ => ⟨p, List.mem_cons_of_mem l hp, hd⟩
    cases l with
    | cmd w =>
      cases hw : isWriteLabel (.cmd w) with
      | true =>
        obtain ⟨p, hd⟩ := decode_of_isWriteLabel hw
        obtain hlater | ⟨_, hduty⟩ := hrec (m' := m + 1) (by simpa [onTimeFrom, hw] using htime)
        · exact .inl hlater
        · refine .inl ⟨p, ?_, by rw [hduty, duty_of_transition_write hd hl]⟩
          rw [encode_eq_of_decode_eq_ok hd]
          exact List.mem_cons_self
      | false =>
        rw [← transition_duty hl hw nofun]
        exact hrec (by simpa [onTimeFrom, hw] using htime)
    | seqstep =>
      rw [← transition_duty hl rfl nofun]
      exact hrec (by simpa [onTimeFrom] using htime)
    | ovf => exact absurd rfl ho.1
    | irqack =>
      obtain hlater | ⟨hzero, _⟩ := hrec (m' := 0) (by simpa [onTimeFrom] using htime)
      · exact .inl hlater
      · cases hzero
    | reset => exact absurd rfl hr.1

end Machine

open Machine

/-- Settles O35: each fair micro-step is one of those the BEGIN has left. -/
theorem fairBeginCompletes : Obligations.FairBeginCompletes :=
  fun _ hf _ hr _ hk => InfiniteRun.begin_completes hf hr hk

/-- Settles O40: the timer runs on, and the interrupt stays up until it is acknowledged. -/
theorem fairTimerAndDispatcherRecur : Obligations.FairTimerAndDispatcherRecur := by
  intro r hr
  refine ⟨fun hf k hk => ?_, fun hf k hk => ?_⟩
  · obtain ⟨j, hj, hl, _⟩ := hf.taken (P := fun s => s.block.timerRuns = true)
      (fun _ => enabled_ovf_of_timerRuns)
      (fun i _ hs => (transition_stillGoing (r.steps i) (hr i)).timerRuns hs) hk
    exact ⟨j, hj, hl⟩
  · obtain ⟨j, hj, hl, _⟩ := hf.taken (P := fun s => s.block.irq = true)
      (fun _ => enabled_irqack_of_irq)
      (fun i hi hs => transition_keeps_irq (r.steps i) hi (hr i) hs) hk
    exact ⟨j, hj, hl⟩

/-- Settles O43: the period starts with no WRITE performed, so one stands in it. -/
theorem onTimePeriodPlaysItsSample : Obligations.OnTimePeriodPlaysItsSample := by
  intro ls s t ho hr htime h
  obtain ⟨u, _, hrest⟩ := runLabels_cons_eq_next h
  obtain hplayed | ⟨hzero, _⟩ := duty_of_onTimeFrom (m := 0) ho hr htime hrest
  · exact hplayed
  · cases hzero

/-- Settles O60: a second BEGIN of a start-up would find the first in progress and be refused; the
start-up's BEGIN comes by the host's duty and completes by fairness, and the block is Running from
then on, so that its interrupt is enabled and, by the host's duty, bound. -/
theorem startUpDutiesLeadToRunning : Obligations.StartUpDutiesLeadToRunning := by
  refine ⟨fun c ls t _ h => ?_, fun r c hc h0 hduties hf hr => ?_⟩
  · exact presentsBeginOnceFrom_of_run (u := .unbegun) (s := State.resetOf c) rfl h
  · obtain ⟨j, _, hbegin⟩ := hduties.begins 0 (by rw [h0]; rfl) (by rw [h0]; rfl)
    have hl : r.label j = .cmd (encode .begin) := hbegin.resolve_right (hr j)
    have hpin : (r.state (j + 1)).block.seq = .pin := by
      obtain ⟨_, hnext⟩ := execBegin_cases
        (transition_cmd_eq_next (decode_encode .begin) (hl ▸ r.steps j))
      rw [hnext]
      rfl
    obtain ⟨k, _, _, hrunning⟩ :=
      InfiniteRun.begin_completes hf hr (k := j + 1) (by rw [hpin]; nofun)
    refine ⟨k, fun i hi => ?_⟩
    have hmode : (r.state i).block.mode = .running :=
      InfiniteRun.keeps (P := fun s => s.block.mode = .running)
        (fun m hm => (transition_stillGoing (r.steps m) (hr m)).running hm) hi hrunning
    have hinv : (r.state i).Inv := InfiniteRun.inv (h0 ▸ inv_resetOf hc) i
    obtain ⟨_, _, _, hovfie, _⟩ := hinv.runningDone hmode
    have hready := hduties.binds i
    rw [State.dispatcherReady, hovfie] at hready
    exact ⟨hmode, hovfie, hready⟩

end Sys2Proof
end
